-- ==== Sys2Proof/Word.lean ====
section
/-! DEFINITION. The bit widths of the encoder's data: wire bytes and request words (spec/00_scope.md R9). -/

namespace Sys2Proof

/-- An 8-bit value: a wire payload byte, an HD44780 instruction or data byte, a register of R24 to R26. -/
abbrev Byte := BitVec 8

/-- A 16-bit request word (R80). -/
abbrev ReqWord := BitVec 16

end Sys2Proof
end

