-- ==== Sys2Proof/Config.lean ====
section
/-! DEFINITION. What is fixed when an encoder is constructed (R20, R7), the answers the bus port can give
(R53), and the model's one free value (R56). -/

namespace Sys2Proof

/-- The response of one bus transaction (R53). -/
inductive BusResponse where
  | ack
  | nack
  | timeout
  | busError
  deriving DecidableEq, Repr, Inhabited

/-- `ONE_ROW_OVERFLOW` (R208, D15): what the cursor does at the end of the only row of a 1-row display. -/
inductive OneRowOverflow where
  | pin
  | wrap
  deriving DecidableEq, Repr

/-- The configuration record `C` (R20), with the OPEN parameter `ONE_ROW_OVERFLOW` (R7) beside it.
No request ever changes it. -/
structure Config where
  /-- `C.busIdentifier`, opaque: only ever handed to the bus port. -/
  busIdentifier : Nat
  /-- `C.deviceAddress`, 7 bits. -/
  deviceAddress : BitVec 7
  columns : Nat
  rows : Nat
  /-- `C.backlightInit`, the parameter `BACKLIGHT_INIT` (D17). -/
  backlightInit : Bool
  oneRowOverflow : OneRowOverflow
  deriving DecidableEq, Repr

/-- The response the environment draws for the `n`-th bus transaction when the state's script names none.
R56: "A model draws it freely for each transaction, under no law". No body, so nothing can evaluate it
(assumption 3). -/
opaque Config.freeResponse : Nat → BusResponse

/-- `T_POWER_ON` (R147, D18), OPEN: the host's wait before INIT, in µs. No rule of the encoder reads it. -/
opaque Config.powerOnWait : Nat

/-- `T_BUS_TIMEOUT` (R242, D32), OPEN: a property of the external transport, in µs. No rule reads it. -/
opaque Config.busTimeout : Nat

end Sys2Proof
end

