-- ==== Sys2Proof/Machine/Flags.lean ====
section
/-! DEFINITION. The encoder has no condition codes (R38): what the source calls flags are argument bits of HD44780
instructions. This file holds every such bit (R24 to R26, R92), the payload bits of the wire byte (R90), and the
register values computed from them. The spec gives the bit places as general knowledge (G1, G2, G4; assumption 14). -/

namespace Sys2Proof.Machine

/-! Payload bits of the wire byte (R90). -/

def backlightBit : Byte := 0x08
def enableBit : Byte := 0x04
def rwBit : Byte := 0x02
def rsBit : Byte := 0x01

/-! Argument bits: function DL, N, F (R24); control D, C, B (R25); entry mode I/D, S (R26); shift S/C, R/L (R92). -/

def bitDL : Byte := 0x10
def bitN : Byte := 0x08
def bitF : Byte := 0x04
def bitD : Byte := 0x04
def bitC : Byte := 0x02
def bitB : Byte := 0x01
def bitID : Byte := 0x02
def bitS : Byte := 0x01
def bitSC : Byte := 0x08
def bitRL : Byte := 0x04

/-! Base values of the HD44780 instruction bytes (R92). -/

def baseClear : Byte := 0x01
def baseHome : Byte := 0x02
def baseEntryMode : Byte := 0x04
def baseDisplayControl : Byte := 0x08
def baseShift : Byte := 0x10
def baseFunctionSet : Byte := 0x20
def baseSetCgram : Byte := 0x40
def baseSetDdram : Byte := 0x80

/-- A bit present or absent. -/
def bitIf (b : Bool) (bit : Byte) : Byte := if b then bit else 0

/-- A register with one bit set or cleared, the others kept: `on ? (v | bit) : (v & ~bit)` (R165, R175). -/
def withBit (v bit : Byte) (on : Bool) : Byte := if on then v ||| bit else v &&& ~~~bit

/-- `F'`, the function register INIT writes (R142, R24): N for 2 and 4 rows, DL and F hardwired 0. -/
def functionFor (c : Config) : Byte := bitIf (c.rows == 2 || c.rows == 4) bitN

/-- The control register after INIT: display on, cursor off, blink off (R25). -/
def controlDefault : Byte := bitD

/-- The entry-mode register after INIT: increment, no display shift (R26). -/
def modeDefault : Byte := bitID

end Sys2Proof.Machine
end

