-- ==== Sys2Proof/Syntax.lean ====
section
/-! DEFINITION. The instructions: one constructor for every mnemonic of spec/opcode_table.json, and the two forms
in which an instruction reaches the encoder. -/

namespace Sys2Proof

/-- Every row of the opcode table. The first twenty are the requests of R82; `reserved` stands for the two
RESERVED rows and for every word with a non-zero reserved bit (R84); the `hd` constructors are the HD44780
instruction bytes of R92 and the lone nibbles of R96, which the protocol engine transmits. -/
inductive Instr where
  /-- INIT (R140); the operand is `e`, "8-bit mode requested". -/
  | init (e : Bool)
  | probe
  | writeChar (c : Byte)
  | home
  | setCursor (col : BitVec 7) (row : BitVec 2)
  | clear
  | displayOn
  | displayOff
  | cursorOn
  | cursorOff
  | blinkOn
  | blinkOff
  | shiftLeft
  | shiftRight
  | leftToRight
  | rightToLeft
  | backlightOn
  | backlightOff
  | writeCustomGlyph (slot : BitVec 3)
  | entryDisplayShift
  /-- RESERVED (R84); the operand is the whole reserved word. -/
  | reserved (w : ReqWord)
  | hdClearDisplay
  | hdReturnHome
  | hdEntryModeSet (i s : Bool)
  | hdDisplayControl (d c b : Bool)
  | hdCursorDisplayShift (m r : Bool)
  | hdFunctionSet (l n f : Bool)
  | hdSetCgramAddress (a : BitVec 6)
  | hdSetDdramAddress (a : BitVec 7)
  | hdWriteData (c : Byte)
  | hdFunctionSet8BitNibble
  | hdFunctionSet4BitNibble
  deriving DecidableEq, Repr

/-- How the protocol engine sends a byte: as a command (RS = 0) or a data byte (RS = 1) of two nibble transfers
(R120, R121), or as one lone nibble transfer with RS = 0 (R96, R115). -/
inductive TransferForm where
  | command
  | data
  | nibble
  deriving DecidableEq, Repr

/-- What is handed to the encoder: a request word on the request channel (R52), or, one layer down (R110), a call
of the protocol engine with the byte it is to send (assumption 2). -/
inductive Command where
  | request (w : ReqWord)
  | transfer (form : TransferForm) (v : Byte)
  deriving DecidableEq, Repr

/-- Whether an instruction is a call of the protocol engine, as against a request (R110). -/
def Instr.isTransfer : Instr → Bool
  | .init _ => false
  | .probe => false
  | .writeChar _ => false
  | .home => false
  | .setCursor _ _ => false
  | .clear => false
  | .displayOn => false
  | .displayOff => false
  | .cursorOn => false
  | .cursorOff => false
  | .blinkOn => false
  | .blinkOff => false
  | .shiftLeft => false
  | .shiftRight => false
  | .leftToRight => false
  | .rightToLeft => false
  | .backlightOn => false
  | .backlightOff => false
  | .writeCustomGlyph _ => false
  | .entryDisplayShift => false
  | .reserved _ => false
  | .hdClearDisplay => true
  | .hdReturnHome => true
  | .hdEntryModeSet _ _ => true
  | .hdDisplayControl _ _ _ => true
  | .hdCursorDisplayShift _ _ => true
  | .hdFunctionSet _ _ _ => true
  | .hdSetCgramAddress _ => true
  | .hdSetDdramAddress _ => true
  | .hdWriteData _ => true
  | .hdFunctionSet8BitNibble => true
  | .hdFunctionSet4BitNibble => true

/-- Whether a command is a call of the protocol engine. -/
def Command.isTransfer : Command → Bool
  | .request _ => false
  | .transfer _ _ => true

end Sys2Proof
end

