-- ==== Sys2Proof/Machine/Operands.lean ====
section
/-! DEFINITION. The operand forms of request words (R81, R83) and the argument checks made on operands (R232
step 3). -/

namespace Sys2Proof.Machine

/-- The five request formats (R81). -/
inductive Format where
  | n
  | c
  | p
  | i
  | g
  deriving DecidableEq, Repr

/-- The operand bits `w[10:0]` that a format marks `0`, which must be zero (R81, R84). -/
def Format.reservedBits : Format → ReqWord
  | .n => 0x07FF
  | .c => 0x0700
  | .p => 0x0600
  | .i => 0x07FE
  | .g => 0x07F8

/-- `w[15:11]` (R80). -/
def opcode (w : ReqWord) : BitVec 5 := w.extractLsb' 11 5

/-- REQ-C: `c = w[7:0]` (R83). -/
def operandC (w : ReqWord) : Byte := w.extractLsb' 0 8

/-- REQ-P: `col = w[6:0]` (R83). -/
def operandCol (w : ReqWord) : BitVec 7 := w.extractLsb' 0 7

/-- REQ-P: `row = w[8:7]` (R83). -/
def operandRow (w : ReqWord) : BitVec 2 := w.extractLsb' 7 2

/-- REQ-I: `e = w[0]` (R83). -/
def operandE (w : ReqWord) : Bool := w.getLsbD 0

/-- REQ-G: `slot = w[2:0]` (R83). -/
def operandSlot (w : ReqWord) : BitVec 3 := w.extractLsb' 0 3

/-- A request word: the opcode above the eleven operand bits (R80). -/
def requestWord (op : BitVec 5) (operand : BitVec 11) : ReqWord := op ++ operand

/-- SET_CURSOR's argument check: the position is inside the geometry (R164). -/
def inGeometry (c : Config) (col : BitVec 7) (row : BitVec 2) : Bool :=
  decide (col.toNat < c.columns) && decide (row.toNat < c.rows)

/-- The address byte of a write on the I2C wire: the 7-bit address, then the write bit 0 (R51). The transport
sends it; no rule of the encoder does. -/
def i2cAddressByte (a : BitVec 7) : Byte := a ++ 0#1

end Sys2Proof.Machine
end

