-- ==== Sys2Proof/Decode.lean ====
section
/-! DEFINITION. The decoder, total on every command, and the encoder, both written from the spec's encoding tables:
request words from R80 to R85, HD44780 instruction bytes from R92, lone nibbles from R96. -/

namespace Sys2Proof

open Sys2Proof.Machine

/-- Why a byte handed to the protocol engine is no instruction of the table. -/
inductive DecodeError where
  /-- The command byte 0x00: R92 identifies an instruction by its highest set bit, and 0x00 has none. -/
  | noCommandByte
  /-- A lone nibble other than 0x3 and 0x2: R96 names only these two. -/
  | noLoneNibble (v : Byte)
  deriving DecidableEq, Repr

/-- The format column of R82; the opcodes 0x14 to 0x1F have none. -/
def formatOf (op : BitVec 5) : Option Format :=
  match op.toNat with
  | 0x00 => some .i
  | 0x01 => some .n
  | 0x02 => some .c
  | 0x03 => some .n
  | 0x04 => some .p
  | 0x05 => some .n
  | 0x06 => some .n
  | 0x07 => some .n
  | 0x08 => some .n
  | 0x09 => some .n
  | 0x0A => some .n
  | 0x0B => some .n
  | 0x0C => some .n
  | 0x0D => some .n
  | 0x0E => some .n
  | 0x0F => some .n
  | 0x10 => some .n
  | 0x11 => some .n
  | 0x12 => some .g
  | 0x13 => some .n
  | _ => none

/-- R84: the opcode is unassigned, or a bit its format marks `0` is 1. -/
def reservedWord (w : ReqWord) : Bool :=
  match formatOf (opcode w) with
  | none => true
  | some f => w &&& f.reservedBits != 0

/-- Decoding of a request word (R82 to R85): every word is an assigned request or reserved. -/
def decodeRequest (w : ReqWord) : Instr :=
  if reservedWord w then .reserved w else
  match (opcode w).toNat with
  | 0x00 => .init (operandE w)
  | 0x01 => .probe
  | 0x02 => .writeChar (operandC w)
  | 0x03 => .home
  | 0x04 => .setCursor (operandCol w) (operandRow w)
  | 0x05 => .clear
  | 0x06 => .displayOn
  | 0x07 => .displayOff
  | 0x08 => .cursorOn
  | 0x09 => .cursorOff
  | 0x0A => .blinkOn
  | 0x0B => .blinkOff
  | 0x0C => .shiftLeft
  | 0x0D => .shiftRight
  | 0x0E => .leftToRight
  | 0x0F => .rightToLeft
  | 0x10 => .backlightOn
  | 0x11 => .backlightOff
  | 0x12 => .writeCustomGlyph (operandSlot w)
  | 0x13 => .entryDisplayShift
  | _ => .reserved w

/-- Decoding of an instruction byte sent with RS = 0: "Each instruction is identified by its highest set bit"
(R92). Don't-care bits are dropped (R95). -/
def decodeCommandByte (v : Byte) : Except DecodeError Instr :=
  if v.getLsbD 7 then .ok (.hdSetDdramAddress (v.extractLsb' 0 7))
  else if v.getLsbD 6 then .ok (.hdSetCgramAddress (v.extractLsb' 0 6))
  else if v.getLsbD 5 then .ok (.hdFunctionSet (v.getLsbD 4) (v.getLsbD 3) (v.getLsbD 2))
  else if v.getLsbD 4 then .ok (.hdCursorDisplayShift (v.getLsbD 3) (v.getLsbD 2))
  else if v.getLsbD 3 then .ok (.hdDisplayControl (v.getLsbD 2) (v.getLsbD 1) (v.getLsbD 0))
  else if v.getLsbD 2 then .ok (.hdEntryModeSet (v.getLsbD 1) (v.getLsbD 0))
  else if v.getLsbD 1 then .ok .hdReturnHome
  else if v.getLsbD 0 then .ok .hdClearDisplay
  else .error .noCommandByte

/-- Decoding of a lone nibble, which is bits 7:4 of the byte (R96). -/
def decodeNibble (v : Byte) : Except DecodeError Instr :=
  if v &&& 0xF0 = 0x30 then .ok .hdFunctionSet8BitNibble
  else if v &&& 0xF0 = 0x20 then .ok .hdFunctionSet4BitNibble
  else .error (.noLoneNibble v)

/-- The decoder. -/
def decode : Command → Except DecodeError Instr
  | .request w => .ok (decodeRequest w)
  | .transfer .command v => decodeCommandByte v
  | .transfer .data v => .ok (.hdWriteData v)
  | .transfer .nibble v => decodeNibble v

/-- The encoder: the command of a well-formed instruction (R82, R83, R92, R96); don't-care bits are 0 (R95). -/
def encode : Instr → Command
  | .init e => .request (requestWord 0x00 (0#10 ++ BitVec.ofBool e))
  | .probe => .request 0x0800
  | .writeChar c => .request (requestWord 0x02 (0#3 ++ c))
  | .home => .request 0x1800
  | .setCursor col row => .request (requestWord 0x04 (0#2 ++ row ++ col))
  | .clear => .request 0x2800
  | .displayOn => .request 0x3000
  | .displayOff => .request 0x3800
  | .cursorOn => .request 0x4000
  | .cursorOff => .request 0x4800
  | .blinkOn => .request 0x5000
  | .blinkOff => .request 0x5800
  | .shiftLeft => .request 0x6000
  | .shiftRight => .request 0x6800
  | .leftToRight => .request 0x7000
  | .rightToLeft => .request 0x7800
  | .backlightOn => .request 0x8000
  | .backlightOff => .request 0x8800
  | .writeCustomGlyph slot => .request (requestWord 0x12 (0#8 ++ slot))
  | .entryDisplayShift => .request 0x9800
  | .reserved w => .request w
  | .hdClearDisplay => .transfer .command baseClear
  | .hdReturnHome => .transfer .command baseHome
  | .hdEntryModeSet i s => .transfer .command (baseEntryMode ||| bitIf i bitID ||| bitIf s bitS)
  | .hdDisplayControl d c b =>
      .transfer .command (baseDisplayControl ||| bitIf d bitD ||| bitIf c bitC ||| bitIf b bitB)
  | .hdCursorDisplayShift m r => .transfer .command (baseShift ||| bitIf m bitSC ||| bitIf r bitRL)
  | .hdFunctionSet l n f =>
      .transfer .command (baseFunctionSet ||| bitIf l bitDL ||| bitIf n bitN ||| bitIf f bitF)
  | .hdSetCgramAddress a => .transfer .command (0b01#2 ++ a)
  | .hdSetDdramAddress a => .transfer .command (0b1#1 ++ a)
  | .hdWriteData c => .transfer .data c
  | .hdFunctionSet8BitNibble => .transfer .nibble 0x30
  | .hdFunctionSet4BitNibble => .transfer .nibble 0x20

/-- The transfer form of an 8-bit row of the opcode table, whose bits say neither RS nor the form: 0x30 and 0x20
are INIT's lone nibbles (R96), 0x00 is no instruction with RS = 0 and so a data byte, any other byte is an
instruction byte with RS = 0 (R92). The rows overlap, so this is the model's choice (assumption 2). -/
def tableForm (v : Byte) : TransferForm :=
  if v = 0x30 ∨ v = 0x20 then .nibble else if v = 0x00 then .data else .command

/-- The command that stands for `nbits` table bits `w`: a request word, or for the table's 8-bit rows a call of the
protocol engine. -/
def tableCommand (nbits w : Nat) : Command :=
  if nbits ≤ 8 then .transfer (tableForm (BitVec.ofNat 8 w)) (BitVec.ofNat 8 w) else .request (BitVec.ofNat 16 w)

/-- The instruction the decoder reads from `nbits` bits `w`, numbered as spec/opcode_table.json numbers them. -/
def decodeTableWord (nbits w : Nat) : Option Instr :=
  match decode (tableCommand nbits w) with
  | .ok i => some i
  | .error _ => none

end Sys2Proof
end

