-- ==== Sys2Proof/Machine/Geometry.lean ====
section
/-! DEFINITION. Display geometry: the row-offset table, DDRAM addresses, and which configurations an encoder can be
constructed with (R21, R201, R202). -/

namespace Sys2Proof.Machine

/-- A logical cursor position, over the naturals (R200, R210). -/
structure Position where
  col : Nat
  row : Nat
  deriving DecidableEq, Repr

/-- ROW_OFFSET (R201). -/
def rowOffset (r : BitVec 2) : Nat :=
  match r.toNat with
  | 0 => 0x00
  | 1 => 0x40
  | 2 => 0x14
  | _ => 0x54

/-- `a(col, row)`, over the naturals (R202). -/
def ddramAddress (col : BitVec 7) (row : BitVec 2) : Nat := col.toNat + rowOffset row

/-- A well-formed configuration (R21). -/
def configWf (c : Config) : Bool :=
  (c.rows == 1 || c.rows == 2 || c.rows == 4) && decide (1 ≤ c.columns) &&
    decide (c.columns + rowOffset (BitVec.ofNat 2 (c.rows - 1)) ≤ 128)

/-- A position on the display (R30). -/
def Position.valid (c : Config) (p : Position) : Bool := decide (p.col < c.columns) && decide (p.row < c.rows)

end Sys2Proof.Machine
end

