-- ==== Sys2Proof/Machine/State.lean ====
section
/-! DEFINITION. The state of the machine: the encoder's state `S` and configuration `C` (R20, R22), its four channels
(R6) as plain data, and the state after construction (R32, R260). -/

namespace Sys2Proof.Machine

/-- The result codes of R86. Code 7 is reserved and has no constructor. -/
inductive ResultCode where
  | ok
  | invalidArgument
  | invalidState
  | notFound
  | timeout
  | transportError
  | notSupported
  deriving DecidableEq, Repr

/-- One event of the trace (R12). A transaction carries where it went and what the bus port answered (R53); the
spec's `W(b)` and `P` leave these out. -/
inductive Event where
  /-- `W(b)`: `write(busIdentifier, deviceAddress, b)` and its response (R111). -/
  | write (bus : Nat) (device : BitVec 7) (b : Byte) (response : BusResponse)
  /-- `P`: `probe(busIdentifier, deviceAddress)` and its response (R112). -/
  | probe (bus : Nat) (device : BitVec 7) (response : BusResponse)
  /-- `D(t)`: a wait of at least `t` µs (R113). -/
  | delay (t : Nat)
  deriving DecidableEq, Repr

/-- The state. `none` in a field of R22 is the spec's `⊥`, "holds no value" (R10, R32;
assumption 5). -/
structure State where
  /-- `C` (R20). -/
  config : Config
  /-- `S.initialized` (R23). -/
  initialized : Bool
  /-- `S.function` (R24). -/
  function : Option Byte
  /-- `S.control` (R25). -/
  control : Option Byte
  /-- `S.mode` (R26). -/
  mode : Option Byte
  /-- `S.col` (R27). -/
  col : Option (BitVec 7)
  /-- `S.row` (R28). -/
  row : Option (BitVec 2)
  /-- `S.backlightOn` (R29). -/
  backlightOn : Bool
  /-- What the host hands over next, in order; the encoder takes one at a time (R36, R52; assumption 6). -/
  inbox : List Command
  /-- The result codes delivered on the response channel so far, oldest first (R54; assumption 7). -/
  responses : List ResultCode
  /-- The results that protocol-engine calls made on their own returned, oldest first (R115, R120, R121;
  assumption 2). -/
  returns : List ResultCode
  /-- The event trace, oldest first (R12; assumption 7). -/
  trace : List Event
  /-- The environment's next bus responses, in order (R56). The model's own field (assumption 3). -/
  busScript : List BusResponse
  /-- How many bus transactions have been made: indexes the free value that answers when the script is used up.
  The model's own field (assumption 3). -/
  busDraws : Nat
  deriving DecidableEq, Repr

/-- The fields of `S` that can hold `⊥` (R32). -/
inductive Field where
  | control
  | mode
  | col
  | row
  deriving DecidableEq, Repr

/-- Why the machine stops with a fault. -/
inductive Fault where
  /-- A request needed the value of a field that holds `⊥`: "a model must treat any decision that depends on such a read
  as a fault" (R10; also R32, I5). Raised by WRITE_CHAR, SHIFT_LEFT, SHIFT_RIGHT, CLEAR, the control, entry-direction
  and backlight requests. Safe: no state that a construction and requests lead to raises it. -/
  | bottomRead (f : Field)
  deriving DecidableEq, Repr

/-- Why the model gives no meaning. -/
inductive Refusal where
  /-- An instruction whose arm is still to be written, by mnemonic. Raised by exec's refused arms; safe. -/
  | notModelled (mnemonic : String)
  /-- WRITE_CUSTOM_GLYPH: "This spec gives the request no meaning. A model refuses it" (R185, D20). Safe. -/
  | customGlyph (slot : BitVec 3)
  deriving DecidableEq, Repr

/-- The state of an encoder just constructed with `c` (R32, R260), before the host or the environment has given
it anything. -/
def State.construct (c : Config) : State where
  config := c
  initialized := false
  function := none
  control := none
  mode := none
  col := none
  row := none
  backlightOn := c.backlightInit
  inbox := []
  responses := []
  returns := []
  trace := []
  busScript := []
  busDraws := 0

/-- R21: a configuration that is not well formed is refused. -/
def State.construct? (c : Config) : Option State := if configWf c then some (State.construct c) else none

/-- The configuration of the one encoder that `State.reset` is: the one spec/95_test_vectors.md uses unless it says
otherwise, 20×4 at address 0x3F, backlight on, `pin` (assumption 1, DESIGN CHOICE). -/
def resetConfig : Config where
  busIdentifier := 0
  deviceAddress := 0x3F
  columns := 20
  rows := 4
  backlightInit := true
  oneRowOverflow := .pin

/-- The machine right after reset: "The only reset is construction" (R260). -/
def State.reset : State := State.construct resetConfig

end Sys2Proof.Machine
end

