-- ==== Sys2Proof/Machine/Timing.lean ====
section
/-! DEFINITION. The delays the encoder asks for, in µs, each a minimum (R7, R13, R280). -/

namespace Sys2Proof.Machine

/-- Pre-pulse hold: between the data write and the EN-high write. -/
def tPre : Nat := 1000
/-- EN-high time. -/
def tEn : Nat := 1
/-- Settle of every instruction other than Home and Clear. -/
def tStd : Nat := 50
/-- Settle of Home. -/
def tHome : Nat := 1520
/-- Settle of Clear. -/
def tClear : Nat := 1520
/-- After INIT's first 0x30 nibble. -/
def tReset1 : Nat := 4100
/-- After INIT's second 0x30 nibble. -/
def tReset2 : Nat := 100
/-- After INIT's 0x20 nibble. -/
def tReset4 : Nat := 40

end Sys2Proof.Machine
end

