-- ==== Sys2Proof/Machine/Ops.lean ====
section
/-! DEFINITION. The operations every instruction is written over: the named updates of State, the primitives
BusWrite, BusProbe and Delay (R111 to R113), the protocol engine (R115 to R121), the checks, the commit discipline
(R31) and the end of a request (R230, R234). The encoder has no traps: `deliver` is where every request and every
error ends (R230, R236). -/

namespace Sys2Proof.Machine

/-- What an instruction answers. -/
abbrev Answer := Host.Outcome State Fault Refusal

/-! ### Named updates -/

/-- Deliver a result code on the response channel; the encoder is then idle (R54, R230). -/
def State.deliver (r : ResultCode) (s : State) : State := { s with responses := s.responses ++ [r] }

/-- Hand the result of a protocol-engine call back to its caller (R115, R117, R120, R121). -/
def State.giveBack (r : ResultCode) (s : State) : State := { s with returns := s.returns ++ [r] }

/-- `(S.col, S.row) <- p`, held in 7 and 2 bits (R22, R27, R28). -/
def State.putCursor (p : Position) (s : State) : State :=
  { s with col := some (BitVec.ofNat 7 p.col), row := some (BitVec.ofNat 2 p.row) }

/-- `S.control <- v`. -/
def State.putControl (v : Byte) (s : State) : State := { s with control := some v }

/-- `S.mode <- v`. -/
def State.putMode (v : Byte) (s : State) : State := { s with mode := some v }

/-- `S.backlightOn <- v`. -/
def State.putBacklight (v : Bool) (s : State) : State := { s with backlightOn := v }

/-- INIT's commit of `S.function` and `S.initialized` (R143). -/
def State.putInitialized (f : Byte) (s : State) : State := { s with function := some f, initialized := true }

/-- Take what is next in the inbox, leaving `rest` (R52). -/
def State.putInbox (rest : List Command) (s : State) : State := { s with inbox := rest }

/-- Append an event to the trace (R67). -/
def State.record (e : Event) (s : State) : State := { s with trace := s.trace ++ [e] }

/-- The environment's draw for the current transaction is used up. -/
def State.drawn (s : State) : State := { s with busScript := s.busScript.tail, busDraws := s.busDraws + 1 }

/-! ### The bus and delay ports -/

/-- The response of the `k`-th transaction from now: what the environment's script says, and a free value past its
end (R56). -/
def State.responseAt (s : State) (k : Nat) : BusResponse :=
  match s.busScript[k]? with
  | some r => r
  | none => Config.freeResponse (s.busDraws + k)

/-- The result of a `BusWrite` from the bus response (R111). -/
def writeResult : BusResponse → ResultCode
  | .ack => .ok
  | .nack => .transportError
  | .timeout => .timeout
  | .busError => .transportError

/-- The result of a `BusProbe` from the bus response (R112). -/
def probeResult : BusResponse → ResultCode
  | .ack => .ok
  | .nack => .notFound
  | .timeout => .timeout
  | .busError => .transportError

/-- One primitive of the pseudocode (R11). -/
inductive Prim where
  | write (b : Byte)
  | probe
  | delay (t : Nat)
  deriving DecidableEq, Repr

/-- Perform one primitive: append its event, and for a transaction take the environment's response (R111 to
R113). -/
def runPrim (p : Prim) (s : State) : ResultCode × State :=
  match p with
  | .write b =>
      (writeResult (s.responseAt 0),
        (s.record (.write s.config.busIdentifier s.config.deviceAddress b (s.responseAt 0))).drawn)
  | .probe =>
      (probeResult (s.responseAt 0),
        (s.record (.probe s.config.busIdentifier s.config.deviceAddress (s.responseAt 0))).drawn)
  | .delay t => (.ok, s.record (.delay t))

/-- Perform primitives in order. The first one that does not return OK ends them, "leaving everything after it
undone": the `?` of R11, and R188, R234. Nothing is retried (R114, R237). -/
def runPlan : List Prim → State → ResultCode × State
  | [], s => (.ok, s)
  | p :: ps, s =>
    match runPrim p s with
    | (r, s') => if r = .ok then runPlan ps s' else (r, s')

/-! ### The protocol engine

Each function gives the primitives of one call, in order, for the backlight flag `bl = S.backlightOn` read at
composition (R116(e)). -/

/-- Register select: command or data (R14). -/
inductive Mode where
  | cmd
  | data
  deriving DecidableEq, Repr

/-- `rs(m)` (R14). -/
def Mode.rs : Mode → Byte
  | .cmd => 0x00
  | .data => rsBit

/-- `base(n, m)` (R91). -/
def payloadBase (bl : Bool) (n : Byte) (m : Mode) : Byte := (n &&& 0xF0) ||| m.rs ||| bitIf bl backlightBit

/-- `writeNibble(n, m)` (R115). -/
def writeNibble (bl : Bool) (n : Byte) (m : Mode) : List Prim :=
  [.write (payloadBase bl n m), .delay tPre, .write (payloadBase bl n m ||| enableBit), .delay tEn,
    .write (payloadBase bl n m &&& ~~~enableBit)]

/-- `writeByte(v, m)`: high nibble first (R117). -/
def writeByte (bl : Bool) (v : Byte) (m : Mode) : List Prim :=
  writeNibble bl (v &&& 0xF0) m ++ writeNibble bl ((v <<< 4) &&& 0xF0) m

/-- `settle(v, m)` (R119). -/
def settle (v : Byte) (m : Mode) : Nat :=
  match m with
  | .cmd => if v = baseHome then tHome else if v = baseClear then tClear else tStd
  | .data => tStd

/-- `cmd(v)` (R120). -/
def cmd (bl : Bool) (v : Byte) : List Prim := writeByte bl v .cmd ++ [.delay (settle v .cmd)]

/-- `data(c)` (R121). -/
def data (bl : Bool) (c : Byte) : List Prim := writeByte bl c .data ++ [.delay tStd]

/-- The byte `0x80 | a(col, row)` (R202). -/
def setDdramByte (col : BitVec 7) (row : BitVec 2) : Byte := baseSetDdram ||| BitVec.ofNat 8 (ddramAddress col row)

/-! ### Checks, commit and completion -/

/-- End the request with a result and no further effect: `raise` (R11, R230). -/
def endRequest (r : ResultCode) (s : State) : Answer := .next (s.deliver r)

/-- `require S.initialized = 1` (R233): otherwise INVALID_STATE, no traffic, no state change. -/
def requireInitialized (s : State) (go : Answer) : Answer :=
  if s.initialized then go else endRequest .invalidState s

/-- Use the value of a field; a field that holds `⊥` is a fault (R10, R32, I5). -/
def readField {α : Type} (f : Field) (v : Option α) (go : α → Answer) : Answer :=
  match v with
  | some x => go x
  | none => .fault (.bottomRead f)

/-- Perform the bus traffic of a request and go on only if all of it returned OK; otherwise the request ends with
the failing transaction's result and nothing is committed (R31, R234). -/
def transmit (plan : List Prim) (s : State) (go : State → Answer) : Answer :=
  match runPlan plan s with
  | (r, s') => if r = .ok then go s' else endRequest r s'

/-- Perform the bus traffic of a request, commit if all of it returned OK, and deliver the result (R31, R234). -/
def transmitCommit (plan : List Prim) (commit : State → State) (s : State) : Answer :=
  .next (match runPlan plan s with
    | (r, s') => (if r = .ok then commit s' else s').deliver r)

/-- A protocol-engine call on its own: perform it and give its result back; no field of `S` is written (R115,
R117). -/
def runTransfer (plan : List Prim) (s : State) : Answer :=
  .next (match runPlan plan s with
    | (r, s') => s'.giveBack r)

end Sys2Proof.Machine
end

