-- ==== Sys2Proof/Machine/Cursor.lean ====
section
/-! DEFINITION. The cursor model (spec/43_cursor_model.md): pure functions from a position to the next one. `none` is
a row-table miss (R209). -/

namespace Sys2Proof.Machine

/-- `NEXT_ROW(rows, r)` (R205). -/
def nextRow (rows r : Nat) : Option Nat :=
  match rows, r with
  | 2, 0 => some 1
  | 2, 1 => some 0
  | 4, 0 => some 2
  | 4, 1 => some 3
  | 4, 2 => some 1
  | 4, 3 => some 0
  | _, _ => none

/-- `PREV_ROW(rows, r)` (R207). -/
def prevRow (rows r : Nat) : Option Nat :=
  match rows, r with
  | 2, 0 => some 1
  | 2, 1 => some 0
  | 4, 0 => some 3
  | 4, 1 => some 2
  | 4, 2 => some 0
  | 4, 3 => some 1
  | _, _ => none

/-- `advance1()`: a 1-row display, increment (R208). -/
def advanceOneRow (c : Config) (p : Position) : Position :=
  if p.col + 1 < c.columns then ⟨p.col + 1, 0⟩
  else match c.oneRowOverflow with
    | .pin => ⟨p.col, 0⟩
    | .wrap => ⟨0, 0⟩

/-- `retreat1()`: a 1-row display, decrement (R208). -/
def retreatOneRow (c : Config) (p : Position) : Position :=
  if 0 < p.col then ⟨p.col - 1, 0⟩
  else match c.oneRowOverflow with
    | .pin => ⟨0, 0⟩
    | .wrap => ⟨c.columns - 1, 0⟩

/-- `advance()` (R204). -/
def advance (c : Config) (p : Position) : Option Position :=
  if c.rows = 1 then some (advanceOneRow c p)
  else if p.col + 1 < c.columns then some ⟨p.col + 1, p.row⟩
  else (nextRow c.rows p.row).map fun r => ⟨0, r⟩

/-- `retreat()` (R206). -/
def retreat (c : Config) (p : Position) : Option Position :=
  if c.rows = 1 then some (retreatOneRow c p)
  else if 0 < p.col then some ⟨p.col - 1, p.row⟩
  else (prevRow c.rows p.row).map fun r => ⟨c.columns - 1, r⟩

/-- `cursorStep()` for the entry mode `m`: only I/D chooses the direction (R203). -/
def cursorStep (c : Config) (m : Byte) (p : Position) : Option Position :=
  if m &&& bitID ≠ 0 then advance c p else retreat c p

/-- The end of WRITE_CHAR and of the shifts, after their instruction has been sent: step the cursor and commit it; a
row-table miss ends with INVALID_STATE and commits nothing (R161, R172, R209). -/
def stepCursorAndEnd (s : State) : Answer :=
  readField .mode s.mode fun m =>
  readField .col s.col fun x =>
  readField .row s.row fun y =>
  match cursorStep s.config m ⟨x.toNat, y.toNat⟩ with
  | some p => endRequest .ok (s.putCursor p)
  | none => endRequest .invalidState s

end Sys2Proof.Machine
end

