-- ==== Sys2Proof/Machine/Character.lean ====
section
/-! DEFINITION. WRITE_CHAR, HOME, CLEAR and SET_CURSOR (R161 to R164). -/

namespace Sys2Proof.Machine

/-- WRITE_CHAR (R161). -/
def execWriteChar (c : Byte) (s : State) : Answer :=
  if c = 0 then endRequest .invalidArgument s
  else requireInitialized s (transmit (data s.backlightOn c) s stepCursorAndEnd)

/-- HOME (R162). -/
def execHome (s : State) : Answer :=
  requireInitialized s (transmitCommit (cmd s.backlightOn baseHome) (State.putCursor ⟨0, 0⟩) s)

/-- CLEAR: the cursor to (0,0), and I/D set as a side effect, with no Entry-Mode-Set sent (R163). -/
def execClear (s : State) : Answer :=
  requireInitialized s (transmit (cmd s.backlightOn baseClear) s fun s' =>
    readField .mode s'.mode fun m =>
    endRequest .ok ((s'.putCursor ⟨0, 0⟩).putMode (withBit m bitID true)))

/-- SET_CURSOR (R164). -/
def execSetCursor (col : BitVec 7) (row : BitVec 2) (s : State) : Answer :=
  if inGeometry s.config col row then
    requireInitialized s (transmitCommit (cmd s.backlightOn (setDdramByte col row))
      (State.putCursor ⟨col.toNat, row.toNat⟩) s)
  else endRequest .invalidArgument s

end Sys2Proof.Machine
end

