-- ==== Sys2Proof/Machine/Control.lean ====
section
/-! DEFINITION. The display, cursor and blink requests, the shifts, the entry direction and the backlight (R165 to
R183). -/

namespace Sys2Proof.Machine

/-- `setControl(bit, on)` (R165). -/
def setControl (bit : Byte) (on : Bool) (s : State) : Answer :=
  requireInitialized s (readField .control s.control fun v =>
    transmitCommit (cmd s.backlightOn (baseDisplayControl ||| withBit v bit on))
      (State.putControl (withBit v bit on)) s)

/-- DISPLAY_ON (R166). -/
def execDisplayOn (s : State) : Answer := setControl bitD true s
/-- DISPLAY_OFF (R167). -/
def execDisplayOff (s : State) : Answer := setControl bitD false s
/-- CURSOR_ON (R168). -/
def execCursorOn (s : State) : Answer := setControl bitC true s
/-- CURSOR_OFF (R169). -/
def execCursorOff (s : State) : Answer := setControl bitC false s
/-- BLINK_ON (R170). -/
def execBlinkOn (s : State) : Answer := setControl bitB true s
/-- BLINK_OFF (R171). -/
def execBlinkOff (s : State) : Answer := setControl bitB false s

/-- `shift(flags)`: the cursor steps by the entry mode, not by the direction of the shift (R172, C8). -/
def shift (flags : Byte) (s : State) : Answer :=
  requireInitialized s (transmit (cmd s.backlightOn (baseShift ||| flags)) s stepCursorAndEnd)

/-- SHIFT_LEFT: display-move, direction left (R173). -/
def execShiftLeft (s : State) : Answer := shift bitSC s
/-- SHIFT_RIGHT: display-move, direction right (R174). -/
def execShiftRight (s : State) : Answer := shift (bitSC ||| bitRL) s

/-- `setEntry(inc)` (R175). -/
def setEntry (inc : Bool) (s : State) : Answer :=
  requireInitialized s (readField .mode s.mode fun m =>
    transmitCommit (cmd s.backlightOn (baseEntryMode ||| withBit m bitID inc)) (State.putMode (withBit m bitID inc)) s)

/-- LEFT_TO_RIGHT (R176). -/
def execLeftToRight (s : State) : Answer := setEntry true s
/-- RIGHT_TO_LEFT (R177). -/
def execRightToLeft (s : State) : Answer := setEntry false s

/-- `setBacklight(v)`: the flag is written before transmitting and kept on failure (R180, R183). -/
def setBacklight (v : Bool) (s : State) : Answer :=
  requireInitialized s (readField .col s.col fun x => readField .row s.row fun y =>
    transmitCommit (cmd v (setDdramByte x y)) id (s.putBacklight v))

/-- BACKLIGHT_ON (R181). -/
def execBacklightOn (s : State) : Answer := setBacklight true s
/-- BACKLIGHT_OFF (R182). -/
def execBacklightOff (s : State) : Answer := setBacklight false s

end Sys2Proof.Machine
end

