-- ==== Sys2Proof/Machine/Init.lean ====
section
/-! DEFINITION. INIT (spec/41_initialization.md) and PROBE (R160). -/

namespace Sys2Proof.Machine

/-- The INIT sequence, steps 1 to 7 (R142). -/
def initPlan (bl : Bool) (f : Byte) : List Prim :=
  writeNibble bl 0x30 .cmd ++ [.delay tReset1] ++
  writeNibble bl 0x30 .cmd ++ [.delay tReset2] ++
  writeNibble bl 0x30 .cmd ++
  writeNibble bl 0x20 .cmd ++ [.delay tReset4] ++
  cmd bl (baseFunctionSet ||| f) ++
  cmd bl (baseDisplayControl ||| controlDefault) ++
  cmd bl baseClear ++
  cmd bl (baseEntryMode ||| modeDefault) ++
  cmd bl baseHome

/-- Step 8, the commit (R143). -/
def initCommit (s : State) : State :=
  ((((s.putInitialized (functionFor s.config)).putControl controlDefault).putMode modeDefault).putCursor ⟨0, 0⟩)

/-- INIT: the checks of R141 in their order, then R142 and R143; R144 on a failed write. -/
def execInit (e : Bool) (s : State) : Answer :=
  if e then endRequest .invalidArgument s
  else if s.initialized then endRequest .invalidState s
  else transmitCommit (initPlan s.backlightOn (functionFor s.config)) initCommit s

/-- PROBE (R160). -/
def execProbe (s : State) : Answer :=
  requireInitialized s (transmitCommit [.probe] id s)

end Sys2Proof.Machine
end

