-- ==== Sys2Proof/Machine/NoTransmission.lean ====
section
/-! DEFINITION. Requests with no transmission: WRITE_CUSTOM_GLYPH (R185), ENTRY_DISPLAY_SHIFT (R186), reserved words
(R84). -/

namespace Sys2Proof.Machine

/-- WRITE_CUSTOM_GLYPH: refused by name, in every state (R185, R232 step 2, D20). -/
def execWriteCustomGlyph (slot : BitVec 3) (_s : State) : Answer := .refused (.customGlyph slot)

/-- ENTRY_DISPLAY_SHIFT (R186). -/
def execEntryDisplayShift (s : State) : Answer := endRequest .notSupported s

/-- RESERVED (R84). -/
def execReserved (_w : ReqWord) (s : State) : Answer := endRequest .invalidArgument s

end Sys2Proof.Machine
end

