-- ==== Sys2Proof/Machine/Transfer.lean ====
section
/-! DEFINITION. The HD44780 instruction bytes and lone nibbles of the opcode table (R92, R96): each is the
protocol-engine call that sends it (R115, R120, R121), made on its own (assumption 2). None has a state requirement and
none writes a field of `S`. -/

namespace Sys2Proof.Machine

/-- HD_CLEAR_DISPLAY: `cmd(0x01)`. -/
def execHdClearDisplay (s : State) : Answer := runTransfer (cmd s.backlightOn baseClear) s

/-- HD_RETURN_HOME: `cmd(0x02)`; the don't-care bit is emitted 0 (R95). -/
def execHdReturnHome (s : State) : Answer := runTransfer (cmd s.backlightOn baseHome) s

/-- HD_ENTRY_MODE_SET: `cmd(0x04 | i<<1 | s)`. -/
def execHdEntryModeSet (i sh : Bool) (s : State) : Answer :=
  runTransfer (cmd s.backlightOn (baseEntryMode ||| bitIf i bitID ||| bitIf sh bitS)) s

/-- HD_DISPLAY_CONTROL: `cmd(0x08 | d<<2 | c<<1 | b)`. -/
def execHdDisplayControl (d c b : Bool) (s : State) : Answer :=
  runTransfer (cmd s.backlightOn (baseDisplayControl ||| bitIf d bitD ||| bitIf c bitC ||| bitIf b bitB)) s

/-- HD_CURSOR_DISPLAY_SHIFT: `cmd(0x10 | m<<3 | r<<2)`, bits 1:0 emitted 0 (R95). -/
def execHdCursorDisplayShift (m r : Bool) (s : State) : Answer :=
  runTransfer (cmd s.backlightOn (baseShift ||| bitIf m bitSC ||| bitIf r bitRL)) s

/-- HD_FUNCTION_SET: `cmd(0x20 | l<<4 | n<<3 | f<<2)`, bits 1:0 emitted 0 (R95). -/
def execHdFunctionSet (l n f : Bool) (s : State) : Answer :=
  runTransfer (cmd s.backlightOn (baseFunctionSet ||| bitIf l bitDL ||| bitIf n bitN ||| bitIf f bitF)) s

/-- HD_SET_CGRAM_ADDRESS: `cmd(0x40 | a)`. No request emits it (R59, R95); the engine sends it like any byte. -/
def execHdSetCgramAddress (a : BitVec 6) (s : State) : Answer :=
  runTransfer (cmd s.backlightOn (baseSetCgram ||| a.setWidth 8)) s

/-- HD_SET_DDRAM_ADDRESS: `cmd(0x80 | a)`. -/
def execHdSetDdramAddress (a : BitVec 7) (s : State) : Answer :=
  runTransfer (cmd s.backlightOn (baseSetDdram ||| a.setWidth 8)) s

/-- HD_WRITE_DATA: `data(c)` (R121); any value. -/
def execHdWriteData (c : Byte) (s : State) : Answer := runTransfer (data s.backlightOn c) s

/-- HD_FUNCTION_SET_8BIT_NIBBLE: `writeNibble(0x30, CMD)` (R96, R115), with no delay after it. -/
def execHdFunctionSet8BitNibble (s : State) : Answer := runTransfer (writeNibble s.backlightOn 0x30 .cmd) s

/-- HD_FUNCTION_SET_4BIT_NIBBLE: `writeNibble(0x20, CMD)` (R96, R115), with no delay after it. -/
def execHdFunctionSet4BitNibble (s : State) : Answer := runTransfer (writeNibble s.backlightOn 0x20 .cmd) s

/-- A byte handed to the protocol engine that the table does not list: "`writeByte` would send it like any other byte"
(R118(c)), and `writeNibble` takes any high nibble (R115; assumption 10). -/
def execUnlisted (why : DecodeError) (s : State) : Answer :=
  match why with
  | .noCommandByte => runTransfer (cmd s.backlightOn 0x00) s
  | .noLoneNibble v => runTransfer (writeNibble s.backlightOn v .cmd) s

end Sys2Proof.Machine
end

