-- ==== Sys2Proof/Machine/Dispatch.lean ====
section
/-! DEFINITION. One arm per instruction, each one call of its meaning. -/

namespace Sys2Proof.Machine

def exec (i : Instr) (s : State) : Host.Outcome State Fault Refusal :=
  match i with
  -- requests (R82)
  | .init e => Sys2Proof.Machine.execInit e s
  | .probe => Sys2Proof.Machine.execProbe s
  | .writeChar c => Sys2Proof.Machine.execWriteChar c s
  | .home => Sys2Proof.Machine.execHome s
  | .setCursor col row => Sys2Proof.Machine.execSetCursor col row s
  | .clear => Sys2Proof.Machine.execClear s
  | .displayOn => Sys2Proof.Machine.execDisplayOn s
  | .displayOff => Sys2Proof.Machine.execDisplayOff s
  | .cursorOn => Sys2Proof.Machine.execCursorOn s
  | .cursorOff => Sys2Proof.Machine.execCursorOff s
  | .blinkOn => Sys2Proof.Machine.execBlinkOn s
  | .blinkOff => Sys2Proof.Machine.execBlinkOff s
  | .shiftLeft => Sys2Proof.Machine.execShiftLeft s
  | .shiftRight => Sys2Proof.Machine.execShiftRight s
  | .leftToRight => Sys2Proof.Machine.execLeftToRight s
  | .rightToLeft => Sys2Proof.Machine.execRightToLeft s
  | .backlightOn => Sys2Proof.Machine.execBacklightOn s
  | .backlightOff => Sys2Proof.Machine.execBacklightOff s
  | .writeCustomGlyph slot => Sys2Proof.Machine.execWriteCustomGlyph slot s
  | .entryDisplayShift => Sys2Proof.Machine.execEntryDisplayShift s
  | .reserved w => Sys2Proof.Machine.execReserved w s
  -- protocol-engine calls (R92, R96)
  | .hdClearDisplay => Sys2Proof.Machine.execHdClearDisplay s
  | .hdReturnHome => Sys2Proof.Machine.execHdReturnHome s
  | .hdEntryModeSet i1 s1 => Sys2Proof.Machine.execHdEntryModeSet i1 s1 s
  | .hdDisplayControl d c b => Sys2Proof.Machine.execHdDisplayControl d c b s
  | .hdCursorDisplayShift m r => Sys2Proof.Machine.execHdCursorDisplayShift m r s
  | .hdFunctionSet l n f => Sys2Proof.Machine.execHdFunctionSet l n f s
  | .hdSetCgramAddress a => Sys2Proof.Machine.execHdSetCgramAddress a s
  | .hdSetDdramAddress a => Sys2Proof.Machine.execHdSetDdramAddress a s
  | .hdWriteData c => Sys2Proof.Machine.execHdWriteData c s
  | .hdFunctionSet8BitNibble => Sys2Proof.Machine.execHdFunctionSet8BitNibble s
  | .hdFunctionSet4BitNibble => Sys2Proof.Machine.execHdFunctionSet4BitNibble s

end Sys2Proof.Machine
end

