-- ==== Sys2Proof/Machine/Step.lean ====
section
/-! DEFINITION. One step: take what the host hands over next, decode it and run it to its end (R34, R36). -/

namespace Sys2Proof.Machine

/-- One step. With nothing handed over the encoder "is idle, and waits for its first request" (R261): the state stays.
Otherwise the command is taken from the inbox, decoded and run as one operation, the unit of execution (D33,
assumption 4). A byte that the table does not list goes out like any other (R118(c), assumption 10). -/
def step (s : State) : Host.Outcome State Fault Refusal :=
  match s.inbox with
  | [] => .next s
  | c :: rest =>
    match decode c with
    | .ok i => exec i (s.putInbox rest)
    | .error why => execUnlisted why (s.putInbox rest)

/-- `s` with the instruction of `nbits` table bits `w` handed over next, before anything the host already had
(assumption 6; R34: "The host decides which request comes next"). -/
def State.withFetchWord (s : State) (nbits w : Nat) : State := s.putInbox (tableCommand nbits w :: s.inbox)

end Sys2Proof.Machine
end

