-- ==== Sys2Proof/Machine/HostSide.lean ====
section
/-! DEFINITION. The host's side of the encoder: result-code numbers (R86), the status port (R35), the pseudo-request
WRITE_STRING (R88) and the assembler's requests (R87; assumption 18). -/

namespace Sys2Proof.Machine

/-- The 3-bit code of a result (R86). -/
def ResultCode.code : ResultCode → BitVec 3
  | .ok => 0
  | .invalidArgument => 1
  | .invalidState => 2
  | .notFound => 3
  | .timeout => 4
  | .transportError => 5
  | .notSupported => 6

/-- What the status port shows between requests: every field of `S` and `C` (R35). -/
structure Status where
  config : Config
  initialized : Bool
  function : Option Byte
  control : Option Byte
  mode : Option Byte
  col : Option (BitVec 7)
  row : Option (BitVec 2)
  backlightOn : Bool
  deriving DecidableEq, Repr

/-- A status read: no side effect, and `⊥` reads as `⊥` (R32, R35). -/
def State.status (s : State) : Status where
  config := s.config
  initialized := s.initialized
  function := s.function
  control := s.control
  mode := s.mode
  col := s.col
  row := s.row
  backlightOn := s.backlightOn

/-- WRITE_STRING: one WRITE_CHAR per byte, each issued only after the previous one returned OK; the first other result
is WRITE_STRING's (R88). The host's expansion, not a request. -/
def execWriteString : List Byte → State → Host.Outcome (ResultCode × State) Fault Refusal
  | [], s => .next (.ok, s)
  | c :: cs, s =>
    match execWriteChar c s with
    | .next s' =>
      match s'.responses.getLast? with
      | some .ok => execWriteString cs s'
      | some r => .next (r, s')
      | none => .next (.ok, s')
    | .fault f => .fault f
    | .refused r => .refused r

/-- An operand as the assembler reads it (R87). -/
inductive AsmOperand where
  | number (n : Nat)
  | ascii (c : Char)
  | eightBit
  deriving DecidableEq, Repr

/-- The mnemonics of R82. -/
inductive Mnemonic where
  | init
  | probe
  | writeChar
  | home
  | setCursor
  | clear
  | displayOn
  | displayOff
  | cursorOn
  | cursorOff
  | blinkOn
  | blinkOff
  | shiftLeft
  | shiftRight
  | leftToRight
  | rightToLeft
  | backlightOn
  | backlightOff
  | writeCustomGlyph
  | entryDisplayShift
  deriving DecidableEq, Repr

/-- A mnemonic as R82 spells it. -/
def Mnemonic.text : Mnemonic → String
  | .init => "INIT"
  | .probe => "PROBE"
  | .writeChar => "WRITE_CHAR"
  | .home => "HOME"
  | .setCursor => "SET_CURSOR"
  | .clear => "CLEAR"
  | .displayOn => "DISPLAY_ON"
  | .displayOff => "DISPLAY_OFF"
  | .cursorOn => "CURSOR_ON"
  | .cursorOff => "CURSOR_OFF"
  | .blinkOn => "BLINK_ON"
  | .blinkOff => "BLINK_OFF"
  | .shiftLeft => "SHIFT_LEFT"
  | .shiftRight => "SHIFT_RIGHT"
  | .leftToRight => "LEFT_TO_RIGHT"
  | .rightToLeft => "RIGHT_TO_LEFT"
  | .backlightOn => "BACKLIGHT_ON"
  | .backlightOff => "BACKLIGHT_OFF"
  | .writeCustomGlyph => "WRITE_CUSTOM_GLYPH"
  | .entryDisplayShift => "ENTRY_DISPLAY_SHIFT"

/-- A number as a field of `k` bits; one that does not fit is an assembly error (R87). -/
def fits (k n : Nat) : Option (BitVec k) := if n < 2 ^ k then some (BitVec.ofNat k n) else none

/-- "Every other mnemonic takes no operand" (R87). -/
def assemblePlain (i : Instr) : List AsmOperand → Option Instr
  | [] => some i
  | _ :: _ => none

/-- `INIT` or `INIT 8BIT` (R87). -/
def assembleInit : List AsmOperand → Option Instr
  | [] => some (.init false)
  | [.eightBit] => some (.init true)
  | _ => none

/-- `WRITE_CHAR <c>`: a number or a quoted ASCII character (R87). -/
def assembleWriteChar : List AsmOperand → Option Instr
  | [.number n] => (fits 8 n).map .writeChar
  | [.ascii c] => if c.toNat < 128 then (fits 8 c.toNat).map .writeChar else none
  | _ => none

/-- `SET_CURSOR <col>, <row>`, column first (R87). -/
def assembleSetCursor : List AsmOperand → Option Instr
  | [.number col, .number row] => (fits 7 col).bind fun x => (fits 2 row).map fun y => .setCursor x y
  | _ => none

/-- `WRITE_CUSTOM_GLYPH <slot>` (R87). -/
def assembleGlyph : List AsmOperand → Option Instr
  | [.number n] => (fits 3 n).map .writeCustomGlyph
  | _ => none

/-- The request of one assembler line, or none for an assembly error (R87). -/
def assemble (m : Mnemonic) (operands : List AsmOperand) : Option Instr :=
  match m with
  | .init => assembleInit operands
  | .probe => assemblePlain .probe operands
  | .writeChar => assembleWriteChar operands
  | .home => assemblePlain .home operands
  | .setCursor => assembleSetCursor operands
  | .clear => assemblePlain .clear operands
  | .displayOn => assemblePlain .displayOn operands
  | .displayOff => assemblePlain .displayOff operands
  | .cursorOn => assemblePlain .cursorOn operands
  | .cursorOff => assemblePlain .cursorOff operands
  | .blinkOn => assemblePlain .blinkOn operands
  | .blinkOff => assemblePlain .blinkOff operands
  | .shiftLeft => assemblePlain .shiftLeft operands
  | .shiftRight => assemblePlain .shiftRight operands
  | .leftToRight => assemblePlain .leftToRight operands
  | .rightToLeft => assemblePlain .rightToLeft operands
  | .backlightOn => assemblePlain .backlightOn operands
  | .backlightOff => assemblePlain .backlightOff operands
  | .writeCustomGlyph => assembleGlyph operands
  | .entryDisplayShift => assemblePlain .entryDisplayShift operands

/-- The requests of `WRITE_STRING "<s>"`, first to last (R88). -/
def assembleString (bytes : List Byte) : List Instr := bytes.map .writeChar

end Sys2Proof.Machine
end

