-- ==== Sys2Proof/Machine/TraceView.lean ====
section
/-! DEFINITION. What a trace says about the units behind the bus port: the expander's output latch (R37, R65, R245), the
nibbles the controller latches and the bytes they pair into (R123, R246), and the waits asked for (R281). These read the
trace; no meaning reads them, since "the encoder never reads" this state (R37). `none` stands for the spec's "any
value" (I5, I6, I7; assumption 8). -/

namespace Sys2Proof.Machine

/-- The primitive an event performed. -/
def Event.prim : Event → Prim
  | .write _ _ b _ => .write b
  | .probe _ _ _ => .probe
  | .delay t => .delay t

/-- The result code an event gives (R111 to R113). -/
def Event.result : Event → ResultCode
  | .write _ _ _ r => writeResult r
  | .probe _ _ r => probeResult r
  | .delay _ => .ok

/-- The sum of the waits asked for, in µs: a lower bound on how long the events took (R13, R281). -/
def minDuration : List Event → Nat
  | [] => 0
  | .delay t :: es => t + minDuration es
  | .write _ _ _ _ :: es => minDuration es
  | .probe _ _ _ :: es => minDuration es

/-- The expander's output latch after `es`, from what it held before: the last byte it acknowledged (R37, R245); any
value after a failed write (R111, I7); unchanged by a probe (R112). -/
def expanderLatch (before : Option Byte) : List Event → Option Byte
  | [] => before
  | .write _ _ b .ack :: es => expanderLatch (some b) es
  | .write _ _ _ .nack :: es => expanderLatch none es
  | .write _ _ _ .timeout :: es => expanderLatch none es
  | .write _ _ _ .busError :: es => expanderLatch none es
  | .probe _ _ _ :: es => expanderLatch before es
  | .delay _ :: es => expanderLatch before es

/-- One latched nibble: D7–D4 and RS at a falling edge of EN (R123). -/
structure Latch where
  nibble : BitVec 4
  rs : Bool
  deriving DecidableEq, Repr

/-- What a write of `b` latches when the lines held `before`: EN falling from 1 to 0 latches D7–D4 and RS (R65). -/
def latchAt (before b : Byte) : List Latch :=
  if before.getLsbD 2 && !b.getLsbD 2 then [⟨b.extractLsb' 4 4, b.getLsbD 0⟩] else []

/-- The nibbles latched during `es`, from lines holding `before`; none when a write failed, since what is latched is
then not known (R116(d), R270). -/
def latched (before : Byte) : List Event → Option (List Latch)
  | [] => some []
  | .write _ _ b .ack :: es => (latched b es).map fun ls => latchAt before b ++ ls
  | .write _ _ _ .nack :: _ => none
  | .write _ _ _ .timeout :: _ => none
  | .write _ _ _ .busError :: _ => none
  | .probe _ _ _ :: es => latched before es
  | .delay _ :: es => latched before es

/-! ### The controller behind the expander (R37, R246, R270) -/

/-- Where the controller stands in a byte (R37, R62). -/
inductive Phase where
  /-- Any value: at power-up (I5), or after a write whose falling edge may or may not have come (R116(c), (d)). -/
  | unknown
  /-- The next nibble it latches is the high half of a byte. -/
  | whole
  /-- It holds a high half; the next nibble it latches "completes that byte as its low half" (R270). -/
  | half (high : Latch)
  deriving DecidableEq, Repr

/-- What the controller and its EN line are known to hold. -/
structure Wire where
  /-- The level of EN; none is any value. -/
  en : Option Bool
  /-- The nibble phase. -/
  phase : Phase
  /-- The bytes known to be taken since INIT switched it to 4-bit mode, with their RS, oldest first. While `phase` is
  unknown there may be more (R116(d), R270). -/
  bytes : List (Byte × Bool)
  /-- No write has failed since then; after a failure "a model must treat the display's content and the controller's
  state as any value" (R270). -/
  inStep : Bool
  deriving DecidableEq, Repr

/-- At power-up: "explicitly unknown/unreliable" (R261, I5). -/
def Wire.powerUp : Wire where
  en := none
  phase := .unknown
  bytes := []
  inStep := false

/-- The controller latches a nibble: high half, then low (R246(b)). Where the RS of the two halves differ, the byte takes
the high half's (assumption 19, DESIGN CHOICE). Pairing goes on also after a Function-Set with DL = 1 sent on its own,
where R62 and R246(b), which speak of 4-bit mode, say nothing (assumption 20, DESIGN CHOICE). -/
def Wire.latch (l : Latch) (w : Wire) : Wire :=
  match w.phase with
  | .unknown => w
  | .whole => { w with phase := .half l }
  | .half h => { w with phase := .whole, bytes := w.bytes ++ [(h.nibble ++ l.nibble, h.rs)] }

/-- An acknowledged write of `b`: EN takes its level, and falling from 1 to 0 latches (R65, R246(a)). From an unknown
level a write with EN = 0 may latch, so the phase is then unknown (R270). -/
def Wire.acked (b : Byte) (w : Wire) : Wire :=
  if b.getLsbD 2 then { w with en := some true }
  else match w.en with
    | some true => { w with en := some false }.latch ⟨b.extractLsb' 4 4, b.getLsbD 0⟩
    | some false => w
    | none => { w with en := some false, phase := .unknown }

/-- A failed write of `b`: whether the expander took it is not known (R111). EN stays as it was only if `b` has the same
level; where it may have fallen, whether the nibble was latched is not known (R116(b) to (d)). -/
def Wire.failed (b : Byte) (w : Wire) : Wire :=
  match w.en, b.getLsbD 2 with
  | some false, false => { w with inStep := false }
  | some true, true => { w with inStep := false }
  | some false, true => { w with en := none, inStep := false }
  | none, true => { w with inStep := false }
  | some true, false => { w with en := none, phase := .unknown, inStep := false }
  | none, false => { w with phase := .unknown, inStep := false }

/-- INIT's step 2 is done: pairing starts with the next latch (R123), whatever the controller held before (R246(d)). -/
def Wire.entered4Bit (w : Wire) : Wire := { w with phase := .whole, bytes := [], inStep := true }

/-- What one event does. Only INIT waits `T_RESET4`, and only at the end of its step 2 (R142, R280). -/
def Wire.after (w : Wire) : Event → Wire
  | .write _ _ b .ack => w.acked b
  | .write _ _ b .nack => w.failed b
  | .write _ _ b .timeout => w.failed b
  | .write _ _ b .busError => w.failed b
  | .probe _ _ _ => w
  | .delay t => if t = tReset4 then w.entered4Bit else w

/-- What a whole trace does, from power-up. -/
def wireAfter (es : List Event) : Wire := es.foldl Wire.after Wire.powerUp

/-- The bytes the controller has taken since INIT switched it to 4-bit mode (R123); none is any value (R270). -/
def controllerView (es : List Event) : Option (List (Byte × Bool)) :=
  if (wireAfter es).inStep then some (wireAfter es).bytes else none

/-- The instruction the controller is given by a byte with its RS (R57, R92). -/
def controllerInstr (p : Byte × Bool) : Except DecodeError Instr :=
  decode (.transfer (if p.2 then .data else .command) p.1)

end Sys2Proof.Machine
end

