-- ==== Sys2Proof/Safety.lean ====
section
/-! DEFINITION. What counts as a sound state, and the words the statements are made of: traces written in the spec's own
notation (R12, R145), with its numbers and not the model's functions, and the premise "every bus response is ACK"
(R56). -/

namespace Sys2Proof.Machine

/-- The state invariant: a well-formed configuration (R21), the five fields of R32 `⊥` exactly until INIT has
succeeded, and then legal values only (R24 to R28, R30). -/
structure StateSound (s : State) : Prop where
  config : configWf s.config = true
  function : s.function = if s.initialized then some (functionFor s.config) else none
  control : s.control.isSome = s.initialized
  mode : s.mode.isSome = s.initialized
  col : s.col.isSome = s.initialized
  row : s.row.isSome = s.initialized
  controlLegal : ∀ v ∈ s.control, v &&& 0xF8 = 0
  modeLegal : ∀ v ∈ s.mode, v = 0x00 ∨ v = 0x02
  colLegal : ∀ x ∈ s.col, x.toNat < s.config.columns
  rowLegal : ∀ y ∈ s.row, y.toNat < s.config.rows

/-- Every transaction of the trace went to the configured device, and no payload byte had RW set (R51, R90). -/
def TraceSound (c : Config) (es : List Event) : Prop :=
  (∀ bus dev b r, Event.write bus dev b r ∈ es →
    bus = c.busIdentifier ∧ dev = c.deviceAddress ∧ b.getLsbD 1 = false) ∧
  (∀ bus dev r, Event.probe bus dev r ∈ es → bus = c.busIdentifier ∧ dev = c.deviceAddress)

/-- A controller that is between two bytes, with EN low, and known to be so. -/
structure Wire.Ready (w : Wire) : Prop where
  enLow : w.en = some false
  phase : w.phase = .whole
  inStep : w.inStep = true

/-- Whenever the model knows the controller to be in step, it is between two bytes, with EN low. -/
def WireSound (s : State) : Prop := (wireAfter s.trace).inStep = true → (wireAfter s.trace).Ready

/-- The premise of R56: the next `n` bus responses are ACK. -/
abbrev AcksAhead (s : State) (n : Nat) : Prop := ∀ k < n, s.responseAt k = .ack

/-- `W(b)` with its bus response (R12, R111). -/
def State.wr (s : State) (b : Byte) (r : BusResponse) : Event :=
  .write s.config.busIdentifier s.config.deviceAddress b r

/-- `W(b)`, acknowledged. -/
def State.w (s : State) (b : Byte) : Event := s.wr b .ack

/-- `N(x)` of R145 for backlight `bl`: `W(x|β) D(1000) W(x|β|0x04) D(1) W(x|β)`, with β = 0x08 or 0x00. RS is bit 0
of `x`. -/
def State.nib (s : State) (bl : Bool) (x : Byte) : List Event :=
  let β : Byte := if bl then 0x08 else 0x00
  [s.w (x ||| β), .delay 1000, s.w (x ||| β ||| 0x04), .delay 1, s.w (x ||| β)]

/-- The events of a command byte `v` (RS = 0), high nibble first, then `D(t)` (R117, R120). -/
def State.cmdEvents (s : State) (bl : Bool) (v : Byte) (t : Nat) : List Event :=
  s.nib bl (v &&& 0xF0) ++ s.nib bl ((v <<< 4) &&& 0xF0) ++ [.delay t]

/-- The events of a data byte `c` (RS = 1), then `D(50)` (R117, R121). -/
def State.dataEvents (s : State) (bl : Bool) (c : Byte) : List Event :=
  s.nib bl ((c &&& 0xF0) ||| 0x01) ++ s.nib bl (((c <<< 4) &&& 0xF0) ||| 0x01) ++ [.delay 50]

/-- The trace of INIT when every write is acknowledged (R145), with the function register value `F'` of R142. -/
def State.initEvents (s : State) : List Event :=
  let f : Byte := if s.config.rows = 2 ∨ s.config.rows = 4 then 0x08 else 0x00
  s.nib s.backlightOn 0x30 ++ [.delay 4100] ++ s.nib s.backlightOn 0x30 ++ [.delay 100] ++
    s.nib s.backlightOn 0x30 ++ s.nib s.backlightOn 0x20 ++ [.delay 40] ++
    s.nib s.backlightOn 0x20 ++ s.nib s.backlightOn ((f <<< 4) &&& 0xF0) ++ [.delay 50] ++
    s.nib s.backlightOn 0x00 ++ s.nib s.backlightOn 0xC0 ++ [.delay 50] ++
    s.nib s.backlightOn 0x00 ++ s.nib s.backlightOn 0x10 ++ [.delay 1520] ++
    s.nib s.backlightOn 0x00 ++ s.nib s.backlightOn 0x60 ++ [.delay 50] ++
    s.nib s.backlightOn 0x00 ++ s.nib s.backlightOn 0x20 ++ [.delay 1520]

/-- A write or a probe: what the bus port answers. -/
def Event.isTransaction : Event → Bool
  | .write _ _ _ _ => true
  | .probe _ _ _ => true
  | .delay _ => false

/-- `s` after `n` bus transactions whose events, with the waits between them, are `es`. Nothing else changes. -/
def State.afterBus (s : State) (n : Nat) (es : List Event) : State :=
  { s with trace := s.trace ++ es, busScript := s.busScript.drop n, busDraws := s.busDraws + n }

/-- `s` after a protocol-engine call sent the command byte `v`, waited `t` µs and gave back OK (R120). -/
def State.afterCommand (s : State) (v : Byte) (t : Nat) : State :=
  { s.afterBus 6 (s.cmdEvents s.backlightOn v t) with returns := s.returns ++ [.ok] }

/-- The requests that need `S.initialized = 1` (R233). -/
def needsInit : Instr → Bool
  | .init _ => false
  | .writeCustomGlyph _ => false
  | .entryDisplayShift => false
  | .reserved _ => false
  | i => !i.isTransfer

/-- The operands pass the argument checks of R232 step 3. -/
def argumentsOk (c : Config) : Instr → Bool
  | .init e => !e
  | .writeChar v => v != 0
  | .setCursor col row => decide (col.toNat < c.columns) && decide (row.toNat < c.rows)
  | _ => true

/-- `advance` or `retreat`, `n` times. -/
def iterStep (f : Position → Option Position) : Nat → Position → Option Position
  | 0, p => some p
  | n + 1, p => (f p).bind (iterStep f n)

/-- The byte and RS that a request other than INIT sends through `writeByte`, as the table of R93 lists them for the
state it starts in; a field that holds `⊥` is read as 0 here, which no statement relies on. -/
def emittedBytes (s : State) : Instr → List (Byte × Bool)
  | .writeChar c => [(c, true)]
  | .home => [(0x02, false)]
  | .clear => [(0x01, false)]
  | .setCursor col row => [(0x80 ||| BitVec.ofNat 8 (col.toNat + rowOffset row), false)]
  | .displayOn => [(0x08 ||| (s.control.getD 0 ||| 0x04), false)]
  | .displayOff => [(0x08 ||| (s.control.getD 0 &&& ~~~0x04), false)]
  | .cursorOn => [(0x08 ||| (s.control.getD 0 ||| 0x02), false)]
  | .cursorOff => [(0x08 ||| (s.control.getD 0 &&& ~~~0x02), false)]
  | .blinkOn => [(0x08 ||| (s.control.getD 0 ||| 0x01), false)]
  | .blinkOff => [(0x08 ||| (s.control.getD 0 &&& ~~~0x01), false)]
  | .shiftLeft => [(0x18, false)]
  | .shiftRight => [(0x1C, false)]
  | .leftToRight => [(0x06, false)]
  | .rightToLeft => [(0x04, false)]
  | .backlightOn => [(0x80 ||| BitVec.ofNat 8 ((s.col.getD 0).toNat + rowOffset (s.row.getD 0)), false)]
  | .backlightOff => [(0x80 ||| BitVec.ofNat 8 ((s.col.getD 0).toNat + rowOffset (s.row.getD 0)), false)]
  | _ => []

/-- How many bus transactions an instruction makes when all are acknowledged; 0 for a request that transmits nothing. -/
def busTransactions : Instr → Nat
  | .init e => if e then 0 else 42
  | .probe => 1
  | .writeChar _ => 6
  | .home => 6
  | .setCursor _ _ => 6
  | .clear => 6
  | .displayOn => 6
  | .displayOff => 6
  | .cursorOn => 6
  | .cursorOff => 6
  | .blinkOn => 6
  | .blinkOff => 6
  | .shiftLeft => 6
  | .shiftRight => 6
  | .leftToRight => 6
  | .rightToLeft => 6
  | .backlightOn => 6
  | .backlightOff => 6
  | .writeCustomGlyph _ => 0
  | .entryDisplayShift => 0
  | .reserved _ => 0
  | .hdClearDisplay => 6
  | .hdReturnHome => 6
  | .hdEntryModeSet _ _ => 6
  | .hdDisplayControl _ _ _ => 6
  | .hdCursorDisplayShift _ _ => 6
  | .hdFunctionSet _ _ _ => 6
  | .hdSetCgramAddress _ => 6
  | .hdSetDdramAddress _ => 6
  | .hdWriteData _ => 6
  | .hdFunctionSet8BitNibble => 3
  | .hdFunctionSet4BitNibble => 3

/-- The minimum durations of R281, in µs: what the waits of an instruction add up to when it succeeds. INIT with e = 1,
ENTRY_DISPLAY_SHIFT, reserved words and WRITE_CUSTOM_GLYPH transmit nothing, so they are 0, as PROBE is. -/
def requestDuration : Instr → Nat
  | .init e => if e then 0 else 21444
  | .probe => 0
  | .writeChar _ => 2052
  | .home => 3522
  | .setCursor _ _ => 2052
  | .clear => 3522
  | .displayOn => 2052
  | .displayOff => 2052
  | .cursorOn => 2052
  | .cursorOff => 2052
  | .blinkOn => 2052
  | .blinkOff => 2052
  | .shiftLeft => 2052
  | .shiftRight => 2052
  | .leftToRight => 2052
  | .rightToLeft => 2052
  | .backlightOn => 2052
  | .backlightOff => 2052
  | .writeCustomGlyph _ => 0
  | .entryDisplayShift => 0
  | .reserved _ => 0
  | .hdClearDisplay => 3522
  | .hdReturnHome => 3522
  | .hdEntryModeSet _ _ => 2052
  | .hdDisplayControl _ _ _ => 2052
  | .hdCursorDisplayShift _ _ => 2052
  | .hdFunctionSet _ _ _ => 2052
  | .hdSetCgramAddress _ => 2052
  | .hdSetDdramAddress _ => 2052
  | .hdWriteData _ => 2052
  | .hdFunctionSet8BitNibble => 1001
  | .hdFunctionSet4BitNibble => 1001

/-- The match and mask columns of R82. -/
def requestMap : List (ReqWord × ReqWord) :=
  [(0x0000, 0xFFFE), (0x0800, 0xFFFF), (0x1000, 0xFF00), (0x1800, 0xFFFF), (0x2000, 0xFE00), (0x2800, 0xFFFF),
    (0x3000, 0xFFFF), (0x3800, 0xFFFF), (0x4000, 0xFFFF), (0x4800, 0xFFFF), (0x5000, 0xFFFF), (0x5800, 0xFFFF),
    (0x6000, 0xFFFF), (0x6800, 0xFFFF), (0x7000, 0xFFFF), (0x7800, 0xFFFF), (0x8000, 0xFFFF), (0x8800, 0xFFFF),
    (0x9000, 0xFFF8), (0x9800, 0xFFFF)]

end Sys2Proof.Machine
end

