-- ==== Sys2Proof/WellFormed.lean ====
section
/-! DEFINITION. Well-formed instructions: the one relation the types of the operands do not already say. -/

namespace Sys2Proof

/-- `reserved w` is well formed when `w` is a reserved word (R84). Every other operand has exactly the values its
field admits (R83: "the encoding admits values outside" the geometry), so it is well formed as it stands. -/
def Instr.wf : Instr → Bool
  | .init _ => true
  | .probe => true
  | .writeChar _ => true
  | .home => true
  | .setCursor _ _ => true
  | .clear => true
  | .displayOn => true
  | .displayOff => true
  | .cursorOn => true
  | .cursorOff => true
  | .blinkOn => true
  | .blinkOff => true
  | .shiftLeft => true
  | .shiftRight => true
  | .leftToRight => true
  | .rightToLeft => true
  | .backlightOn => true
  | .backlightOff => true
  | .writeCustomGlyph _ => true
  | .entryDisplayShift => true
  | .reserved w => reservedWord w
  | .hdClearDisplay => true
  | .hdReturnHome => true
  | .hdEntryModeSet _ _ => true
  | .hdDisplayControl _ _ _ => true
  | .hdCursorDisplayShift _ _ => true
  | .hdFunctionSet _ _ _ => true
  | .hdSetCgramAddress _ => true
  | .hdSetDdramAddress _ => true
  | .hdWriteData _ => true
  | .hdFunctionSet8BitNibble => true
  | .hdFunctionSet4BitNibble => true

end Sys2Proof
end

