-- ==== Sys2Proof/Certificates/Slice0/Obligations.lean ====
section
/-! DEFINITION. The statements for the provers, from the spec's numbered rules. None depends on what the opaque
`Config.freeResponse` answers: the premise `AcksAhead` names the responses a statement needs (R56). -/

open Sys2Proof Sys2Proof.Machine

/-! ### Encodings -/

/-- Decode and encode agree on every well-formed instruction, at every operand value (R81 to R84, R92, R96). -/
def Obligations.DecodeOfEncodeIsTheInstruction : Prop :=
  ∀ i : Instr, i.wf = true → decode (encode i) = .ok i

/-- R85: every 16-bit word is an assigned request, matching a row of the opcode map of R82 and coming back from the
encoder, or reserved, matching none. -/
def Obligations.EveryWordIsAssignedOrReserved : Prop :=
  ∀ w : ReqWord, ∃ i, decode (.request w) = .ok i ∧ encode i = .request w ∧ i.wf = true ∧
    (i = .reserved w ↔ ∀ row ∈ requestMap, w &&& row.2 ≠ row.1)

/-- Words written out from R82, R92 and R96 decode to the instructions they stand for. -/
def Obligations.WordsOfTheOpcodeTableDecode : Prop :=
  decode (.request 0b0000000000000001) = .ok (.init true) ∧
  decode (.request 0b0000100000000000) = .ok .probe ∧
  decode (.request 0b0001000001000001) = .ok (.writeChar 0x41) ∧
  decode (.request 0b0010000110010011) = .ok (.setCursor 19 3) ∧
  decode (.request 0b0011000000000000) = .ok .displayOn ∧
  decode (.request 0b0110100000000000) = .ok .shiftRight ∧
  decode (.request 0b0111100000000000) = .ok .rightToLeft ∧
  decode (.request 0b1000100000000000) = .ok .backlightOff ∧
  decode (.request 0b1001000000000111) = .ok (.writeCustomGlyph 7) ∧
  decode (.request 0b1001100000000000) = .ok .entryDisplayShift ∧
  decode (.request 0b1010000000000000) = .ok (.reserved 0xA000) ∧
  decode (.transfer .command 0b00001101) = .ok (.hdDisplayControl true false true) ∧
  decode (.transfer .data 0b00001101) = .ok (.hdWriteData 0x0D) ∧
  decode (.transfer .nibble 0b00110000) = .ok .hdFunctionSet8BitNibble

/-- The response channel's 3-bit codes, of which 7 is never produced (R86). -/
def Obligations.ResultCodesAreNumberedByTheTable : Prop :=
  ResultCode.ok.code = 0 ∧ ResultCode.invalidArgument.code = 1 ∧ ResultCode.invalidState.code = 2 ∧
  ResultCode.notFound.code = 3 ∧ ResultCode.timeout.code = 4 ∧ ResultCode.transportError.code = 5 ∧
  ResultCode.notSupported.code = 6 ∧ ∀ r : ResultCode, r.code ≠ 7

/-- R87: the operands of every mnemonic, column first in `SET_CURSOR`; a number that does not fit its field, or a list of
operands that the mnemonic does not take (too few, too many, of the wrong kind), is an assembly error. That a quoted
character outside ASCII is one too is log entry 18 (DEDUCED), not R87's words. -/
def Obligations.AssemblerRefusesWhatDoesNotFit : Prop :=
  assemble .init [] = some (.init false) ∧ assemble .init [.eightBit] = some (.init true) ∧
  (∀ os, os ≠ [] → os ≠ [.eightBit] → assemble .init os = none) ∧
  (∀ n : Nat, assemble .writeChar [.number n] = if n < 256 then some (.writeChar (BitVec.ofNat 8 n)) else none) ∧
  (∀ c : Char, assemble .writeChar [.ascii c] =
    if c.toNat < 128 then some (.writeChar (BitVec.ofNat 8 c.toNat)) else none) ∧
  (∀ os, (∀ n, os ≠ [.number n]) → (∀ c, os ≠ [.ascii c]) → assemble .writeChar os = none) ∧
  (∀ col row : Nat, assemble .setCursor [.number col, .number row] =
    if col < 128 ∧ row < 4 then some (.setCursor (BitVec.ofNat 7 col) (BitVec.ofNat 2 row)) else none) ∧
  (∀ os, (∀ col row, os ≠ [.number col, .number row]) → assemble .setCursor os = none) ∧
  (∀ n : Nat, assemble .writeCustomGlyph [.number n] =
    if n < 8 then some (.writeCustomGlyph (BitVec.ofNat 3 n)) else none) ∧
  (∀ os, (∀ n, os ≠ [.number n]) → assemble .writeCustomGlyph os = none) ∧
  ∀ row ∈ ([(.probe, .probe), (.home, .home), (.clear, .clear), (.displayOn, .displayOn), (.displayOff, .displayOff),
      (.cursorOn, .cursorOn), (.cursorOff, .cursorOff), (.blinkOn, .blinkOn), (.blinkOff, .blinkOff),
      (.shiftLeft, .shiftLeft), (.shiftRight, .shiftRight), (.leftToRight, .leftToRight),
      (.rightToLeft, .rightToLeft), (.backlightOn, .backlightOn), (.backlightOff, .backlightOff),
      (.entryDisplayShift, .entryDisplayShift)] : List (Mnemonic × Instr)),
    assemble row.1 [] = some row.2 ∧ ∀ o os, assemble row.1 (o :: os) = none

/-! ### Construction, step and invariant -/

/-- R32: the state at construction, that a status read gives its `⊥` back, and that no request reads a `⊥` field. -/
def Obligations.ConstructionGivesTheResetState : Prop :=
  ∀ c s, State.construct? c = some s →
    s.config = c ∧ s.initialized = false ∧ s.backlightOn = c.backlightInit ∧ s.function = none ∧ s.control = none ∧
    s.mode = none ∧ s.col = none ∧ s.row = none ∧ s.trace = [] ∧
    s.status.function = none ∧ s.status.control = none ∧ s.status.mode = none ∧ s.status.col = none ∧
    s.status.row = none ∧ ∀ i f, exec i s ≠ .fault f

/-- R21: an encoder is constructed exactly with a well-formed configuration, whose addresses fit in 7 bits. -/
def Obligations.OnlyWellFormedConfigurationsAreConstructed : Prop :=
  (∀ c : Config, (∃ s, State.construct? c = some s) ↔
    1 ≤ c.columns ∧ ((c.rows = 1 ∧ c.columns + 0x00 ≤ 128) ∨ (c.rows = 2 ∧ c.columns + 0x40 ≤ 128) ∨
      (c.rows = 4 ∧ c.columns + 0x54 ≤ 128))) ∧
  ∀ (c : Config) (s : State) (x : BitVec 7) (y : BitVec 2), State.construct? c = some s → x.toNat < c.columns →
    y.toNat < c.rows → ddramAddress x y < 2 ^ 7

/-- The invariant holds of every constructed encoder, and of `State.reset`, which is one (assumption 1 says
which). -/
def Obligations.ConstructedEncodersMeetTheInvariant : Prop :=
  (∀ c s, State.construct? c = some s → StateSound s) ∧ StateSound State.reset

/-- When what the host hands over next decodes to `i`, the step is `exec i` with it taken from the inbox. -/
def Obligations.StepRunsTheDecodedCommand : Prop :=
  ∀ s c rest i, s.inbox = c :: rest → decode c = .ok i → step s = exec i { s with inbox := rest }

/-- R261: with no request handed over, the encoder stays idle. -/
def Obligations.IdleEncoderWaits : Prop := ∀ s, s.inbox = [] → step s = .next s

/-- R118(c), R115: a byte that the opcode table does not list goes out like any other. These are the command byte 0x00
and the lone nibbles other than 0x3 and 0x2, and no others. That they can be sent on their own is the model's choice
(log entries 2, 10). -/
def Obligations.UnlistedBytesAreSentLikeAnyOther : Prop :=
  (∀ c why, decode c = .error why ↔ (c = .transfer .command 0x00 ∧ why = .noCommandByte) ∨
    ∃ v : Byte, c = .transfer .nibble v ∧ v &&& 0xF0 ≠ 0x30 ∧ v &&& 0xF0 ≠ 0x20 ∧ why = .noLoneNibble v) ∧
  (∀ s rest, s.inbox = .transfer .command 0x00 :: rest → AcksAhead s 6 →
    step s = .next (({ s with inbox := rest } : State).afterCommand 0x00 50)) ∧
  ∀ (s : State) (v : Byte) rest, v &&& 0xF0 ≠ 0x30 → v &&& 0xF0 ≠ 0x20 → s.inbox = .transfer .nibble v :: rest →
    AcksAhead s 3 →
    step s = .next { s.afterBus 3 (s.nib s.backlightOn (v &&& 0xF0)) with
      inbox := rest, returns := s.returns ++ [.ok] }

/-- R21, R22 to R30: every step from a state that meets the invariant gives one that does. -/
def Obligations.EveryStepKeepsTheInvariant : Prop :=
  ∀ s t, StateSound s → step s = .next t → StateSound t

/-- Under the invariant every instruction answers a next state, but for WRITE_CUSTOM_GLYPH, which is refused: no `⊥` is
ever read (R32). -/
def Obligations.EveryInstructionButTheGlyphAnswers : Prop :=
  ∀ i s, StateSound s → (∃ t, exec i s = .next t) ∨ ∃ slot, i = .writeCustomGlyph slot ∧ exec i s = .refused (.customGlyph slot)

/-! ### The primitives and the protocol engine -/

/-- R111, R112: what BusWrite and BusProbe append, the result of each bus response, that no field of `S` is written, and
what the expander holds afterwards (`none` is any value). -/
def Obligations.BusResponsesGiveTheirResults : Prop :=
  ∀ (s : State) (b : Byte) (r : BusResponse) (before : Option Byte), s.responseAt 0 = r →
    runPrim (.write b) s = (match r with
        | .ack => .ok | .nack => .transportError | .timeout => .timeout | .busError => .transportError,
      s.afterBus 1 [.write s.config.busIdentifier s.config.deviceAddress b r]) ∧
    expanderLatch before [.write s.config.busIdentifier s.config.deviceAddress b r] =
      (if r = .ack then some b else none) ∧
    runPrim .probe s = (match r with
        | .ack => .ok | .nack => .notFound | .timeout => .timeout | .busError => .transportError,
      s.afterBus 1 [.probe s.config.busIdentifier s.config.deviceAddress r]) ∧
    expanderLatch before [.probe s.config.busIdentifier s.config.deviceAddress r] = before

/-- R115: the three writes of a nibble transfer, its trace, and its result: OK, or the first failing write's. -/
def Obligations.NibbleTransferPulsesEnable : Prop :=
  ∀ (s : State) (n b : Byte) (m : Mode),
    b = (n &&& 0xF0) ||| (match m with | .cmd => 0x00 | .data => 0x01) ||| (if s.backlightOn then 0x08 else 0x00) →
    runPlan (writeNibble s.backlightOn n m) s =
      if s.responseAt 0 ≠ .ack then
        (writeResult (s.responseAt 0), s.afterBus 1 [s.wr b (s.responseAt 0)])
      else if s.responseAt 1 ≠ .ack then
        (writeResult (s.responseAt 1), s.afterBus 2 [s.w b, .delay 1000, s.wr (b ||| 0x04) (s.responseAt 1)])
      else
        (writeResult (s.responseAt 2),
          s.afterBus 3 [s.w b, .delay 1000, s.w (b ||| 0x04), .delay 1, s.wr (b &&& ~~~0x04) (s.responseAt 2)])

/-- R116(a), (c), (f): the low bits are discarded; after a transfer that failed on its second write and left EN high, the
next acknowledged write with EN = 0 latches its own nibble; and the byte 0x00 is transmitted. -/
def Obligations.NibbleTransferCornerCases : Prop :=
  ∀ (s : State) (n : Byte) (m : Mode),
    runPlan (writeNibble s.backlightOn n m) s = runPlan (writeNibble s.backlightOn (n &&& 0xF0) m) s ∧
    (∀ b next : Byte, next.getLsbD 2 = false →
      latched (b ||| 0x04) [s.w next] = some [⟨next.extractLsb' 4 4, next.getLsbD 0⟩]) ∧
    (n &&& 0xF0 = 0 → s.backlightOn = false → AcksAhead s 3 → runPlan (writeNibble s.backlightOn n .cmd) s =
      (.ok, s.afterBus 3 [s.w 0x00, .delay 1000, s.w 0x04, .delay 1, s.w 0x00]))

/-- R117: a byte is two nibble transfers, high nibble first, the second only after the first returned OK; and its trace
when all six writes are acknowledged, with no delay of its own. -/
def Obligations.ByteTransferSendsTheHighNibbleFirst : Prop :=
  ∀ (s : State) (v : Byte) (m : Mode) (rs : Byte), rs = (match m with | .cmd => 0x00 | .data => 0x01) →
    (∀ r t, runPlan (writeNibble s.backlightOn (v &&& 0xF0) m) s = (r, t) →
      runPlan (writeByte s.backlightOn v m) s =
        if r = .ok then runPlan (writeNibble s.backlightOn ((v <<< 4) &&& 0xF0) m) t else (r, t)) ∧
    (AcksAhead s 6 → runPlan (writeByte s.backlightOn v m) s =
      (.ok, s.afterBus 6 (s.nib s.backlightOn ((v &&& 0xF0) ||| rs) ++
        s.nib s.backlightOn (((v <<< 4) &&& 0xF0) ||| rs))))

/-- R119, R120, R121: only the command bytes Home and Clear settle for 1520 µs; the settle time follows a byte transfer
that succeeded, and no other. -/
def Obligations.SettleTimeIsPerInstruction : Prop :=
  (∀ v m, settle v m =
    if m = .cmd ∧ v = 0x02 then 1520 else if m = .cmd ∧ v = 0x01 then 1520 else 50) ∧
  (∀ (s t : State) (v : Byte) (r : ResultCode), runPlan (writeByte s.backlightOn v .cmd) s = (r, t) →
    runPlan (cmd s.backlightOn v) s =
      if r = .ok then (.ok, t.afterBus 0 [.delay (settle v .cmd)]) else (r, t)) ∧
  ∀ (s t : State) (c : Byte) (r : ResultCode), runPlan (writeByte s.backlightOn c .data) s = (r, t) →
    runPlan (data s.backlightOn c) s = if r = .ok then (.ok, t.afterBus 0 [.delay 50]) else (r, t)

/-- R234, R188, R237: primitives run in order; the first transaction that fails is the last event, and its result is
the result; otherwise all of them run and the result is OK. The state changes nowhere but in the trace and the
environment's draws. -/
def Obligations.FailingTransactionIsTheLastEvent : Prop :=
  ∀ (plan : List Prim) (s t : State) (r : ResultCode), runPlan plan s = (r, t) → ∃ es n,
    t = s.afterBus n es ∧ es.map Event.prim = plan.take es.length ∧
    (r = .ok → es.length = plan.length ∧ ∀ e ∈ es, e.result = .ok) ∧
    (r ≠ .ok → ∃ front last, es = front ++ [last] ∧ (∀ e ∈ front, e.result = .ok) ∧ last.result = r)

/-! ### INIT and PROBE -/

/-- R141: INIT's two checks, in order. -/
def Obligations.InitChecksItsArgumentThenTheState : Prop :=
  (∀ s, exec (.init true) s = .next { s with responses := s.responses ++ [.invalidArgument] }) ∧
  ∀ s, s.initialized = true → exec (.init false) s = .next { s with responses := s.responses ++ [.invalidState] }

/-- R142, R143, R145: INIT sends the reset-by-instruction sequence and commits. -/
def Obligations.InitSendsTheSequenceAndCommits : Prop :=
  ∀ (s : State) (f : Byte), s.initialized = false → AcksAhead s 42 →
    f = (if s.config.rows = 2 ∨ s.config.rows = 4 then 0x08 else 0x00) →
    exec (.init false) s = .next
      { s.afterBus 42 s.initEvents with
        function := some f, control := some 0x04, mode := some 0x02, col := some 0, row := some 0,
        initialized := true, responses := s.responses ++ [.ok] }

/-- R144: when the first write of INIT that is not acknowledged is the `k`-th (from 0), INIT has sent the trace of R145 up to
and including it and nothing after it, ends with its result, and changes no field of `S`: `initialized` stays 0. -/
def Obligations.FailedInitCommitsNothing : Prop :=
  ∀ (s : State) (k : Nat) (r : BusResponse), s.initialized = false → k < 42 → (∀ j < k, s.responseAt j = .ack) →
    s.responseAt k = r → r ≠ .ack →
    ∃ front b rest, s.initEvents = front ++ s.w b :: rest ∧ (front.filter Event.isTransaction).length = k ∧
      exec (.init false) s = .next { s.afterBus (k + 1) (front ++ [s.wr b r]) with
        responses := s.responses ++ [writeResult r] }

/-- R160: the word 0x0800 is PROBE; it appends `P`, and its result is that of the bus response, NACK being "not found";
before INIT it ends with INVALID_STATE. -/
def Obligations.ProbeAnswersWhetherTheDeviceIsThere : Prop :=
  decode (.request 0x0800) = .ok .probe ∧
  (∀ (s : State) (r : BusResponse), s.initialized = true → s.responseAt 0 = r →
    exec .probe s = .next
      { s.afterBus 1 [.probe s.config.busIdentifier s.config.deviceAddress r] with
        responses := s.responses ++ [match r with
          | .ack => .ok | .nack => .notFound | .timeout => .timeout | .busError => .transportError] }) ∧
  ∀ s : State, s.initialized = false → exec .probe s = .next { s with responses := s.responses ++ [.invalidState] }

/-! ### Characters and the cursor -/

/-- R161, R203: WRITE_CHAR sends the character as data and steps the cursor by the entry mode. -/
def Obligations.WriteCharSendsTheCharacterAndStepsTheCursor : Prop :=
  ∀ (s : State) (c m : Byte) (x : BitVec 7) (y : BitVec 2), StateSound s → s.initialized = true → c ≠ 0 → AcksAhead s 6 →
    s.mode = some m → s.col = some x → s.row = some y →
    ∃ p, (if m.getLsbD 1 then advance s.config ⟨x.toNat, y.toNat⟩ else retreat s.config ⟨x.toNat, y.toNat⟩) = some p ∧
      p.valid s.config = true ∧
      exec (.writeChar c) s = .next { s.afterBus 6 (s.dataEvents s.backlightOn c) with
        col := some (BitVec.ofNat 7 p.col), row := some (BitVec.ofNat 2 p.row), responses := s.responses ++ [.ok] }

/-- R162: HOME sends 0x02, waits 1520 µs, and the cursor is (0,0). -/
def Obligations.HomePutsTheCursorAtTheOrigin : Prop :=
  ∀ s : State, s.initialized = true → AcksAhead s 6 →
    exec .home s = .next { s.afterBus 6 (s.cmdEvents s.backlightOn 0x02 1520) with
      col := some 0, row := some 0, responses := s.responses ++ [.ok] }

/-- R163: CLEAR sends 0x01, waits 1520 µs, the cursor is (0,0) and I/D is set whatever it was. -/
def Obligations.ClearSetsTheIncrementBit : Prop :=
  ∀ (s : State) (m : Byte), s.initialized = true → s.mode = some m → AcksAhead s 6 →
    exec .clear s = .next { s.afterBus 6 (s.cmdEvents s.backlightOn 0x01 1520) with
      col := some 0, row := some 0, mode := some (m ||| 0x02), responses := s.responses ++ [.ok] }

/-- R164: SET_CURSOR to a position of the geometry sends `0x80 | a(col,row)` and reads back exactly; any other position
is INVALID_ARGUMENT in every state. -/
def Obligations.SetCursorSendsTheAddressAndReadsBack : Prop :=
  ∀ (s : State) (x : BitVec 7) (y : BitVec 2),
    (x.toNat < s.config.columns → y.toNat < s.config.rows → s.initialized = true → AcksAhead s 6 →
      exec (.setCursor x y) s = .next
        { s.afterBus 6 (s.cmdEvents s.backlightOn (0x80 ||| BitVec.ofNat 8 (x.toNat + rowOffset y)) 50) with
          col := some x, row := some y, responses := s.responses ++ [.ok] }) ∧
    (s.config.columns ≤ x.toNat ∨ s.config.rows ≤ y.toNat →
      exec (.setCursor x y) s = .next { s with responses := s.responses ++ [.invalidArgument] }) ∧
    (x.toNat < s.config.columns → y.toNat < s.config.rows → s.initialized = false →
      exec (.setCursor x y) s = .next { s with responses := s.responses ++ [.invalidState] })

/-- R201, R202: the row offsets, the address over the naturals, that no address of a well-formed geometry exceeds 7 bits,
and that the Set-DDRAM-Address byte holds it untruncated. -/
def Obligations.DdramAddressesFitSevenBits : Prop :=
  rowOffset 0 = 0x00 ∧ rowOffset 1 = 0x40 ∧ rowOffset 2 = 0x14 ∧ rowOffset 3 = 0x54 ∧
  (∀ x y, ddramAddress x y = x.toNat + rowOffset y) ∧
  ∀ (c : Config) (x : BitVec 7) (y : BitVec 2), configWf c = true → x.toNat < c.columns → y.toNat < c.rows →
    ddramAddress x y ≤ 0x7F ∧ (setDdramByte x y).toNat = 0x80 + ddramAddress x y ∧
    setDdramByte x y = 0x80 ||| BitVec.ofNat 8 (ddramAddress x y)

/-- R205: the row the increment step moves to from the last column. -/
def Obligations.AdvanceFollowsTheRowPairs : Prop :=
  ∀ c : Config, 1 ≤ c.columns →
    (c.rows ≠ 1 → ∀ x y, x + 1 < c.columns → advance c ⟨x, y⟩ = some ⟨x + 1, y⟩) ∧
    (c.rows = 2 → advance c ⟨c.columns - 1, 0⟩ = some ⟨0, 1⟩ ∧ advance c ⟨c.columns - 1, 1⟩ = some ⟨0, 0⟩ ∧
      ∀ y, 2 ≤ y → advance c ⟨c.columns - 1, y⟩ = none) ∧
    (c.rows = 4 → advance c ⟨c.columns - 1, 0⟩ = some ⟨0, 2⟩ ∧ advance c ⟨c.columns - 1, 1⟩ = some ⟨0, 3⟩ ∧
      advance c ⟨c.columns - 1, 2⟩ = some ⟨0, 1⟩ ∧ advance c ⟨c.columns - 1, 3⟩ = some ⟨0, 0⟩ ∧
      ∀ y, 4 ≤ y → advance c ⟨c.columns - 1, y⟩ = none)

/-- R207: the row the decrement step moves to from column 0. -/
def Obligations.RetreatFollowsTheInverseRowTable : Prop :=
  ∀ c : Config, 1 ≤ c.columns →
    (c.rows ≠ 1 → ∀ x y, 0 < x → retreat c ⟨x, y⟩ = some ⟨x - 1, y⟩) ∧
    (c.rows = 2 → retreat c ⟨0, 0⟩ = some ⟨c.columns - 1, 1⟩ ∧ retreat c ⟨0, 1⟩ = some ⟨c.columns - 1, 0⟩ ∧
      ∀ y, 2 ≤ y → retreat c ⟨0, y⟩ = none) ∧
    (c.rows = 4 → retreat c ⟨0, 0⟩ = some ⟨c.columns - 1, 3⟩ ∧ retreat c ⟨0, 1⟩ = some ⟨c.columns - 1, 2⟩ ∧
      retreat c ⟨0, 2⟩ = some ⟨c.columns - 1, 0⟩ ∧ retreat c ⟨0, 3⟩ = some ⟨c.columns - 1, 1⟩ ∧
      ∀ y, 4 ≤ y → retreat c ⟨0, y⟩ = none)

/-- R208: a 1-row display at and between its ends, under both values of `ONE_ROW_OVERFLOW`. -/
def Obligations.OneRowDisplayPinsOrWraps : Prop :=
  ∀ (c : Config) (x y : Nat), c.rows = 1 →
    (x + 1 < c.columns → advance c ⟨x, y⟩ = some ⟨x + 1, 0⟩) ∧
    (0 < x → retreat c ⟨x, y⟩ = some ⟨x - 1, 0⟩) ∧
    (c.columns ≤ x + 1 → c.oneRowOverflow = .pin → advance c ⟨x, y⟩ = some ⟨x, 0⟩) ∧
    (c.columns ≤ x + 1 → c.oneRowOverflow = .wrap → advance c ⟨x, y⟩ = some ⟨0, 0⟩) ∧
    (c.oneRowOverflow = .pin → retreat c ⟨0, y⟩ = some ⟨0, 0⟩) ∧
    (c.oneRowOverflow = .wrap → retreat c ⟨0, y⟩ = some ⟨c.columns - 1, 0⟩)

/-- R210, R30: the cursor step of a valid position is a valid position, never a row-table miss. -/
def Obligations.CursorStepStaysOnTheDisplay : Prop :=
  ∀ (c : Config) (p : Position), configWf c = true → p.valid c = true →
    (∃ q, advance c p = some q ∧ q.valid c = true) ∧ ∃ q, retreat c p = some q ∧ q.valid c = true

/-- R211(a): advance and retreat undo each other, except on a 1-row display under `pin`. -/
def Obligations.AdvanceAndRetreatAreInverse : Prop :=
  ∀ (c : Config) (p : Position), configWf c = true → (c.rows ≠ 1 ∨ c.oneRowOverflow = .wrap) → p.valid c = true →
    (advance c p).bind (retreat c) = some p ∧ (retreat c p).bind (advance c) = some p

/-- R211(b), (c): from any valid position, `columns × rows` steps come back to it, and on the way each valid position
is visited exactly once; in both directions. -/
def Obligations.CursorCyclesThroughEveryPosition : Prop :=
  ∀ (c : Config) (p : Position), configWf c = true → (c.rows ≠ 1 ∨ c.oneRowOverflow = .wrap) → p.valid c = true →
    iterStep (advance c) (c.columns * c.rows) p = some p ∧ iterStep (retreat c) (c.columns * c.rows) p = some p ∧
    ∀ q : Position, q.valid c = true →
      (∃! k, k < c.columns * c.rows ∧ iterStep (advance c) k p = some q) ∧
      ∃! k, k < c.columns * c.rows ∧ iterStep (retreat c) k p = some q

/-! ### Control, shift, entry mode, backlight -/

/-- R165 to R171: each of the six requests sets or clears its bit, re-sends the whole control byte, and commits it. -/
def Obligations.ControlRequestsResendTheControlByte : Prop :=
  ∀ (s : State) (v : Byte), s.initialized = true → s.control = some v → AcksAhead s 6 →
    ∀ row ∈ ([(.displayOn, v ||| 0x04), (.displayOff, v &&& ~~~0x04), (.cursorOn, v ||| 0x02),
        (.cursorOff, v &&& ~~~0x02), (.blinkOn, v ||| 0x01), (.blinkOff, v &&& ~~~0x01)] : List (Instr × Byte)),
      exec row.1 s = .next { s.afterBus 6 (s.cmdEvents s.backlightOn (0x08 ||| row.2) 50) with
        control := some row.2, responses := s.responses ++ [.ok] }

/-- R172 to R174: the shifts send 0x18 and 0x1C, and step the cursor by the entry mode, not by their direction. -/
def Obligations.ShiftsStepTheCursorByTheEntryMode : Prop :=
  ∀ (s : State) (m : Byte) (x : BitVec 7) (y : BitVec 2), StateSound s → s.initialized = true → AcksAhead s 6 →
    s.mode = some m → s.col = some x → s.row = some y →
    ∃ p, (if m.getLsbD 1 then advance s.config ⟨x.toNat, y.toNat⟩ else retreat s.config ⟨x.toNat, y.toNat⟩) = some p ∧
      p.valid s.config = true ∧
      ∀ row ∈ ([(.shiftLeft, 0x18), (.shiftRight, 0x1C)] : List (Instr × Byte)),
        exec row.1 s = .next { s.afterBus 6 (s.cmdEvents s.backlightOn row.2 50) with
          col := some (BitVec.ofNat 7 p.col), row := some (BitVec.ofNat 2 p.row), responses := s.responses ++ [.ok] }

/-- R209: a row-table miss after the instruction has been sent ends with INVALID_STATE and commits no cursor; and no
state that meets the invariant gets there. -/
def Obligations.RowTableMissCommitsNoCursor : Prop :=
  (∀ (s : State) (m c : Byte) (x : BitVec 7) (y : BitVec 2), s.initialized = true → c ≠ 0 → AcksAhead s 6 →
    s.mode = some m → s.col = some x → s.row = some y → cursorStep s.config m ⟨x.toNat, y.toNat⟩ = none →
    exec (.writeChar c) s = .next { s.afterBus 6 (s.dataEvents s.backlightOn c) with
      responses := s.responses ++ [.invalidState] } ∧
    exec .shiftLeft s = .next { s.afterBus 6 (s.cmdEvents s.backlightOn 0x18 50) with
      responses := s.responses ++ [.invalidState] } ∧
    exec .shiftRight s = .next { s.afterBus 6 (s.cmdEvents s.backlightOn 0x1C 50) with
      responses := s.responses ++ [.invalidState] }) ∧
  ∀ (s : State) (m : Byte) (x : BitVec 7) (y : BitVec 2), StateSound s → s.col = some x → s.row = some y →
    cursorStep s.config m ⟨x.toNat, y.toNat⟩ ≠ none

/-- R175 to R177: the direction requests set or clear I/D, re-send the mode byte and commit it. -/
def Obligations.EntryDirectionResendsTheModeByte : Prop :=
  ∀ (s : State) (m : Byte), s.initialized = true → s.mode = some m → AcksAhead s 6 →
    ∀ row ∈ ([(.leftToRight, m ||| 0x02), (.rightToLeft, m &&& ~~~0x02)] : List (Instr × Byte)),
      exec row.1 s = .next { s.afterBus 6 (s.cmdEvents s.backlightOn (0x04 ||| row.2) 50) with
        mode := some row.2, responses := s.responses ++ [.ok] }

/-- R180 to R182: a backlight request re-sets the cursor to where it is, with the new backlight bit in all six payload
bytes. -/
def Obligations.BacklightRequestsResendTheCursor : Prop :=
  ∀ (s : State) (x : BitVec 7) (y : BitVec 2), s.initialized = true → s.col = some x → s.row = some y →
    AcksAhead s 6 →
    ∀ row ∈ ([(.backlightOn, true), (.backlightOff, false)] : List (Instr × Bool)),
      exec row.1 s = .next
        { s.afterBus 6 (s.cmdEvents row.2 (0x80 ||| BitVec.ofNat 8 (x.toNat + rowOffset y)) 50) with
          backlightOn := row.2, responses := s.responses ++ [.ok] }

/-- R183: the new backlight value is in place before the first write, carried by every write, and kept when one
fails, the request then ending with the bus error. -/
def Obligations.BacklightValueIsKeptOnFailure : Prop :=
  ∀ (s t : State) (x : BitVec 7) (y : BitVec 2), s.initialized = true → s.col = some x → s.row = some y →
    ∀ row ∈ ([(.backlightOn, true), (.backlightOff, false)] : List (Instr × Bool)), exec row.1 s = .next t →
      t.backlightOn = row.2 ∧
      ∃ es r, t.trace = s.trace ++ es ∧ t.responses = s.responses ++ [r] ∧
        (∀ bus dev b a, Event.write bus dev b a ∈ es → b.getLsbD 3 = row.2) ∧
        (r ≠ .ok → ∃ front b a, es = front ++ [.write s.config.busIdentifier s.config.deviceAddress b a] ∧
          r = writeResult a)

/-! ### Requests with no transmission, and the order of the checks -/

/-- R84: a word that matches no row of R82 ends with INVALID_ARGUMENT, with no traffic, no delay and no change of `S`,
in every state; and so does every instruction `reserved`. -/
def Obligations.ReservedWordsEndWithInvalidArgument : Prop :=
  (∀ (s : State) (w : ReqWord) (rest : List Command), (∀ row ∈ requestMap, w &&& row.2 ≠ row.1) →
    s.inbox = .request w :: rest →
    step s = .next { s with inbox := rest, responses := s.responses ++ [.invalidArgument] }) ∧
  ∀ (s : State) (w : ReqWord), exec (.reserved w) s = .next { s with responses := s.responses ++ [.invalidArgument] }

/-- R186: ENTRY_DISPLAY_SHIFT ends with NOT_SUPPORTED, in every state, with no traffic and no change of `S`. -/
def Obligations.EntryDisplayShiftIsNotSupported : Prop :=
  ∀ s : State, exec .entryDisplayShift s = .next { s with responses := s.responses ++ [.notSupported] }

/-- R185: the model refuses WRITE_CUSTOM_GLYPH, in every state. -/
def Obligations.CustomGlyphIsRefused : Prop :=
  ∀ (s : State) (slot : BitVec 3), exec (.writeCustomGlyph slot) s = .refused (.customGlyph slot)

/-- R233: which requests need INIT first, and that before it each of them ends with INVALID_STATE, with no traffic and no
change of `S`, or with INVALID_ARGUMENT where an argument check fails (R232); INIT needs `S.initialized = 0`. -/
def Obligations.RequestsBeforeInitEndWithInvalidState : Prop :=
  (∀ i : Instr, i.isTransfer = false → (needsInit i = false ↔
    (∃ e, i = .init e) ∨ i = .entryDisplayShift ∨ (∃ w, i = .reserved w) ∨ ∃ slot, i = .writeCustomGlyph slot)) ∧
  (∀ (s : State) (i : Instr), needsInit i = true → s.initialized = false →
    exec i s = .next { s with
      responses := s.responses ++ [if argumentsOk s.config i then .invalidState else .invalidArgument] }) ∧
  ∀ s : State, s.initialized = true → exec (.init false) s = .next { s with responses := s.responses ++ [.invalidState] }

/-- R232 step 3: argument checks come before the state check and before any traffic, in every state. -/
def Obligations.ArgumentChecksComeFirst : Prop :=
  ∀ (s : State) (i : Instr), (needsInit i = true ∨ ∃ e, i = .init e) → argumentsOk s.config i = false →
    exec i s = .next { s with responses := s.responses ++ [.invalidArgument] }

/-! ### Whole-machine rules -/

/-- R230, R231, R54: every request that answers a next state delivers exactly one result code. A call of the protocol
engine delivers none; it gives one result back to its caller (assumption 2). -/
def Obligations.EveryRequestDeliversOneResult : Prop :=
  ∀ i s t, exec i s = .next t →
    (i.isTransfer = false → ∃ r, t.responses = s.responses ++ [r] ∧ t.returns = s.returns) ∧
    (i.isTransfer = true → ∃ r, t.returns = s.returns ++ [r] ∧ t.responses = s.responses)

/-- R31, R234: the fields change only when every bus transaction of the request returned OK; a request that ends with
any other result changes none, but for `S.backlightOn` in a backlight request; and the first transaction that fails is
the last event, its result the request's. -/
def Obligations.FailedRequestsCommitNothing : Prop :=
  ∀ i s t r, i.isTransfer = false → exec i s = .next t → t.responses = s.responses ++ [r] →
    ∃ es, t.trace = s.trace ++ es ∧ (r = .ok → ∀ e ∈ es, e.result = .ok) ∧
    ((∃ e ∈ es, e.result ≠ .ok) →
      ∃ front last, es = front ++ [last] ∧ (∀ e ∈ front, e.result = .ok) ∧ last.result = r ∧ r ≠ .ok) ∧
    (r ≠ .ok → t.initialized = s.initialized ∧ t.function = s.function ∧ t.control = s.control ∧ t.mode = s.mode ∧
      t.col = s.col ∧ t.row = s.row ∧
      (t.backlightOn = s.backlightOn ∨ (i = .backlightOn ∧ t.backlightOn = true) ∨
        (i = .backlightOff ∧ t.backlightOn = false)))

/-- The frame of every instruction (the "written by" column of R22; R20, R23, R24, R29): what each leaves unchanged
whenever it answers a next state. The trace only grows (R12), and what the host hands over is not touched by it. -/
def Obligations.FieldsAreWrittenOnlyByTheirRequests : Prop :=
  ∀ i s t, exec i s = .next t →
    t.config = s.config ∧ t.inbox = s.inbox ∧ (∃ es, t.trace = s.trace ++ es) ∧
    (s.initialized = true → t.initialized = true) ∧
    ((∀ e, i ≠ .init e) → t.initialized = s.initialized ∧ t.function = s.function) ∧
    ((∀ e, i ≠ .init e) → i ∉ ([.displayOn, .displayOff, .cursorOn, .cursorOff, .blinkOn, .blinkOff] : List Instr) →
      t.control = s.control) ∧
    ((∀ e, i ≠ .init e) → i ∉ ([.clear, .leftToRight, .rightToLeft] : List Instr) → t.mode = s.mode) ∧
    ((∀ e, i ≠ .init e) → (∀ x y, i ≠ .setCursor x y) → (∀ c, i ≠ .writeChar c) →
      i ∉ ([.clear, .home, .shiftLeft, .shiftRight] : List Instr) → t.col = s.col ∧ t.row = s.row) ∧
    (i ∉ ([.backlightOn, .backlightOff] : List Instr) → t.backlightOn = s.backlightOn)

/-- R51, R90, R29: every transaction an instruction makes goes to the configured device, and every payload byte has
RW = 0 and carries the backlight flag in bit 3. -/
def Obligations.EveryPayloadCarriesTheBacklightAndNoRead : Prop :=
  ∀ i s t, exec i s = .next t → ∃ es, t.trace = s.trace ++ es ∧ TraceSound s.config es ∧
    ∀ bus dev b r, Event.write bus dev b r ∈ es → b.getLsbD 3 = t.backlightOn

/-- R281: a nibble transfer waits 1001 µs, a byte 2002, and every instruction that succeeds exactly the sum R281 lists for
it (`requestDuration`); one that makes no transaction waits nothing. -/
def Obligations.MinimumDurations : Prop :=
  (∀ (s : State) (bl : Bool) (x y : Byte), minDuration (s.nib bl x) = 1001 ∧
    minDuration (s.nib bl x ++ s.nib bl y) = 2002) ∧
  (∀ i s t es, exec i s = .next t → t.trace = s.trace ++ es →
    (t.responses = s.responses ++ [.ok] ∨ t.returns = s.returns ++ [.ok]) → minDuration es = requestDuration i) ∧
  (∀ i s t es, exec i s = .next t → t.trace = s.trace ++ es → (∀ e ∈ es, e.isTransaction = false) →
    minDuration es = 0) ∧
  ∀ i s t, busTransactions i = 0 → exec i s = .next t → t.trace = s.trace ∧ requestDuration i = 0

/-! ### The controller behind the bus -/

/-- R93, R123: when every transaction is acknowledged, a request other than INIT succeeds; and a controller in step takes
from it exactly the byte R93 lists, with its RS, and is in step after it. -/
def Obligations.ControllerReceivesTheEmittedBytes : Prop :=
  ∀ (i : Instr) (s : State) (bytes : List (Byte × Bool)), StateSound s → s.initialized = true → needsInit i = true →
    argumentsOk s.config i = true → AcksAhead s (busTransactions i) → (wireAfter s.trace).Ready →
    controllerView s.trace = some bytes →
    ∃ t es, exec i s = .next t ∧ t.responses = s.responses ++ [.ok] ∧ t.trace = s.trace ++ es ∧
      (wireAfter t.trace).Ready ∧ controllerView t.trace = some (bytes ++ emittedBytes s i) ∧
      minDuration es = requestDuration i

/-- R93, R123, R246(d) for INIT: four lone nibbles, then five bytes; and whatever the controller and its EN line held
before, it is then in step. -/
def Obligations.ControllerReceivesTheInitSequence : Prop :=
  ∀ s : State, configWf s.config = true → s.initialized = false → AcksAhead s 42 →
    ∃ t es, exec (.init false) s = .next t ∧ t.responses = s.responses ++ [.ok] ∧ t.trace = s.trace ++ es ∧
      (∀ before : Byte, before.getLsbD 2 = false → latched before es =
        some (([0x3, 0x3, 0x3, 0x2, 0x2, if s.config.rows = 1 then 0x0 else 0x8, 0x0, 0xC, 0x0, 0x1, 0x0, 0x6, 0x0,
          0x2] : List (BitVec 4)).map fun n => ⟨n, false⟩)) ∧
      (wireAfter t.trace).Ready ∧
      controllerView t.trace = some [(if s.config.rows = 1 then 0x20 else 0x28, false), (0x0C, false), (0x01, false),
        (0x06, false), (0x02, false)] ∧ minDuration es = 21444

/-- R59, R95: no request emits Set-CGRAM-Address: whatever request runs, and whatever controller between two bytes takes
its events, no command byte it takes has 01 in bits 7:6, unless a write failed. -/
def Obligations.NoRequestEmitsSetCgramAddress : Prop :=
  ∀ (i : Instr) (s t : State) (es : List Event) (w : Wire), StateSound s → i.isTransfer = false →
    exec i s = .next t → t.trace = s.trace ++ es → w.Ready → w.bytes = [] →
    (es.foldl Wire.after w).inStep = true →
    ∀ p ∈ (es.foldl Wire.after w).bytes, p.2 = false → p.1 &&& 0xC0 ≠ 0x40

/-- R270: after an instruction one of whose writes failed, the expander's latch and what the controller holds are any
value; and what the controller holds stays any value through every instruction but an INIT on an encoder not
initialized. The latch does not: the next acknowledged write sets it (R245). That a failure of the very first write
counts too is the model's caution (log entry 8). -/
def Obligations.FailedWritesDesynchronise : Prop :=
  (∀ (i : Instr) (s t : State) (es : List Event) (before : Option Byte), exec i s = .next t →
    t.trace = s.trace ++ es → (∃ bus dev b r, Event.write bus dev b r ∈ es ∧ r ≠ .ack) →
    expanderLatch before t.trace = none ∧ controllerView t.trace = none) ∧
  ∀ (i : Instr) (s t : State), i ≠ .init false ∨ s.initialized = true → exec i s = .next t →
    controllerView s.trace = none → controllerView t.trace = none

/-- R270, R116: where a failure of the `k`-th write (from 0) of a WRITE_CHAR leaves the controller, and what follows. After
an EN-high write EN may be left high; after the high nibble and before the low one the controller holds half a byte; a
controller that holds half a byte takes the next byte's high nibble as its low half and is off by one nibble from then
on; and with EN left high the next acknowledged write with EN = 0 latches its own nibble. Which RS a byte takes whose two
halves differ in RS no rule says: that it is the first half's (`h.rs`) is the model's choice (log entry 19, DESIGN
CHOICE). That `bytes` stays is what the model knows to have been taken: for `k = 5` the controller may already have the
byte and have executed it (R270, R116(d)), which the unknown phase stands for (log entry 8). -/
def Obligations.HalfAByteShiftsEveryLaterByte : Prop :=
  (∀ (s t : State) (c : Byte) (k : Nat), s.initialized = true → c ≠ 0 → (wireAfter s.trace).Ready → k < 6 →
    (∀ j < k, s.responseAt j = .ack) → s.responseAt k ≠ .ack → exec (.writeChar c) s = .next t →
    (wireAfter t.trace).en = (if k = 0 ∨ k = 3 then some false else none) ∧
    (wireAfter t.trace).phase = (if k = 0 ∨ k = 1 then .whole else
      if k = 3 ∨ k = 4 then .half ⟨c.extractLsb' 4 4, true⟩ else .unknown) ∧
    (wireAfter t.trace).bytes = (wireAfter s.trace).bytes) ∧
  (∀ (s : State) (bl : Bool) (v : Byte) (t : Nat) (w : Wire) (h : Latch), w.en = some false → w.phase = .half h →
    t ≠ 40 →
    (s.cmdEvents bl v t).foldl Wire.after w = { w with
      phase := .half ⟨v.extractLsb' 0 4, false⟩, bytes := w.bytes ++ [(h.nibble ++ v.extractLsb' 4 4, h.rs)] } ∧
    (s.dataEvents bl v).foldl Wire.after w = { w with
      phase := .half ⟨v.extractLsb' 0 4, true⟩, bytes := w.bytes ++ [(h.nibble ++ v.extractLsb' 4 4, h.rs)] }) ∧
  ∀ (s : State) (b : Byte) (w : Wire), w.en = some true → w.phase = .whole → b.getLsbD 2 = false →
    w.after (s.w b) = { w with en := some false, phase := .half ⟨b.extractLsb' 4 4, b.getLsbD 0⟩ }

/-- R62, R123: at construction, and after every request and every byte sent on its own, a controller known to be in step is
between two bytes, with EN low. That it stays in step after a Function-Set with DL = 1 (8-bit interface) sent on its own
is the model's choice, no rule (log entry 20, DESIGN CHOICE); no request sends one (R24, R93). -/
def Obligations.EveryRequestKeepsTheControllerInStep : Prop :=
  (∀ c s, State.construct? c = some s → WireSound s) ∧
  ∀ (i : Instr) (s t : State), i ≠ .hdFunctionSet8BitNibble → i ≠ .hdFunctionSet4BitNibble → WireSound s →
    exec i s = .next t → WireSound t

/-! ### WRITE_STRING -/

/-- R88: an empty string writes nothing and is OK; each character is a WRITE_CHAR, issued only after the previous one
answered OK, and the first other result, whatever the reason, is WRITE_STRING's: the characters before it are written
and those after it are not. A 0 byte fails with INVALID_ARGUMENT. -/
def Obligations.WriteStringStopsAtTheFirstFailure : Prop :=
  (∀ s, execWriteString [] s = .next (.ok, s)) ∧
  (∀ (s u : State) (c : Byte) (cs : List Byte) (r : ResultCode), exec (.writeChar c) s = .next u →
    u.responses = s.responses ++ [r] →
    execWriteString (c :: cs) s = if r = .ok then execWriteString cs u else .next (r, u)) ∧
  (∀ (s : State) (front : List Byte), StateSound s → s.initialized = true → (∀ c ∈ front, c ≠ 0) →
    AcksAhead s (6 * front.length) →
    ∃ t, execWriteString front s = .next (.ok, t) ∧
      t.responses = s.responses ++ List.replicate front.length .ok ∧
      t.trace = s.trace ++ front.flatMap (s.dataEvents s.backlightOn) ∧
      (∀ back, execWriteString (front ++ 0 :: back) s =
        .next (.invalidArgument, { t with responses := t.responses ++ [.invalidArgument] })) ∧
      ∀ (c : Byte) (back : List Byte) (u : State) (r : ResultCode), exec (.writeChar c) t = .next u →
        u.responses = t.responses ++ [r] → r ≠ .ok → execWriteString (front ++ c :: back) s = .next (r, u)) ∧
  ∀ (s : State) (c : Byte) (cs : List Byte), s.initialized = false → c ≠ 0 →
    execWriteString (c :: cs) s = .next (.invalidState, { s with responses := s.responses ++ [.invalidState] })

/-! ### The HD44780 rows of the table (assumption 2: a call of the protocol engine made on its own) -/

/-- R119, R120, R92: each instruction byte goes out as a command of two nibble transfers and its settle time. -/
def Obligations.InstructionBytesAreSentAsCommands : Prop :=
  ∀ s : State, AcksAhead s 6 →
    exec .hdClearDisplay s = .next (s.afterCommand 0x01 1520) ∧
    exec .hdReturnHome s = .next (s.afterCommand 0x02 1520) ∧
    (∀ i sh, exec (.hdEntryModeSet i sh) s =
      .next (s.afterCommand (0x04 ||| (if i then 0x02 else 0) ||| (if sh then 0x01 else 0)) 50)) ∧
    (∀ d c b, exec (.hdDisplayControl d c b) s =
      .next (s.afterCommand
        (0x08 ||| (if d then 0x04 else 0) ||| (if c then 0x02 else 0) ||| (if b then 0x01 else 0)) 50)) ∧
    (∀ m r, exec (.hdCursorDisplayShift m r) s =
      .next (s.afterCommand (0x10 ||| (if m then 0x08 else 0) ||| (if r then 0x04 else 0)) 50)) ∧
    (∀ l n f, exec (.hdFunctionSet l n f) s =
      .next (s.afterCommand
        (0x20 ||| (if l then 0x10 else 0) ||| (if n then 0x08 else 0) ||| (if f then 0x04 else 0)) 50)) ∧
    (∀ a : BitVec 6, exec (.hdSetCgramAddress a) s = .next (s.afterCommand (BitVec.ofNat 8 (0x40 + a.toNat)) 50)) ∧
    (∀ a : BitVec 7, exec (.hdSetDdramAddress a) s = .next (s.afterCommand (BitVec.ofNat 8 (0x80 + a.toNat)) 50))

/-- R121: a data byte goes out with RS = 1 and waits 50 µs, whatever the byte. -/
def Obligations.DataBytesAreSentWithRsSet : Prop :=
  ∀ (s : State) (c : Byte), AcksAhead s 6 →
    exec (.hdWriteData c) s = .next { s.afterBus 6 (s.dataEvents s.backlightOn c) with
      returns := s.returns ++ [.ok] }

/-- R96, R115: the lone nibbles go out as one nibble transfer each, with no delay after it. -/
def Obligations.LoneNibblesAreOneTransfer : Prop :=
  ∀ s : State, AcksAhead s 3 →
    exec .hdFunctionSet8BitNibble s = .next { s.afterBus 3 (s.nib s.backlightOn 0x30) with
      returns := s.returns ++ [.ok] } ∧
    exec .hdFunctionSet4BitNibble s = .next { s.afterBus 3 (s.nib s.backlightOn 0x20) with
      returns := s.returns ++ [.ok] }
end

