-- ==== Sys2Proof/Laws/State.lean ====
section
/-! SUPPORT. One lemma per field per named update of State, so that no proof unfolds a record update. -/

namespace Sys2Proof.Machine

/-! `State.deliver` -/

@[simp] theorem State.deliver_config (s : State) (r : ResultCode) : (s.deliver r).config = s.config := rfl
@[simp] theorem State.deliver_initialized (s : State) (r : ResultCode) :
    (s.deliver r).initialized = s.initialized := rfl
@[simp] theorem State.deliver_function (s : State) (r : ResultCode) : (s.deliver r).function = s.function := rfl
@[simp] theorem State.deliver_control (s : State) (r : ResultCode) : (s.deliver r).control = s.control := rfl
@[simp] theorem State.deliver_mode (s : State) (r : ResultCode) : (s.deliver r).mode = s.mode := rfl
@[simp] theorem State.deliver_col (s : State) (r : ResultCode) : (s.deliver r).col = s.col := rfl
@[simp] theorem State.deliver_row (s : State) (r : ResultCode) : (s.deliver r).row = s.row := rfl
@[simp] theorem State.deliver_backlightOn (s : State) (r : ResultCode) :
    (s.deliver r).backlightOn = s.backlightOn := rfl
@[simp] theorem State.deliver_inbox (s : State) (r : ResultCode) : (s.deliver r).inbox = s.inbox := rfl
@[simp] theorem State.deliver_responses (s : State) (r : ResultCode) :
    (s.deliver r).responses = s.responses ++ [r] := rfl
@[simp] theorem State.deliver_returns (s : State) (r : ResultCode) : (s.deliver r).returns = s.returns := rfl
@[simp] theorem State.deliver_trace (s : State) (r : ResultCode) : (s.deliver r).trace = s.trace := rfl
@[simp] theorem State.deliver_busScript (s : State) (r : ResultCode) : (s.deliver r).busScript = s.busScript := rfl
@[simp] theorem State.deliver_busDraws (s : State) (r : ResultCode) : (s.deliver r).busDraws = s.busDraws := rfl

/-! `State.giveBack` -/

@[simp] theorem State.giveBack_config (s : State) (r : ResultCode) : (s.giveBack r).config = s.config := rfl
@[simp] theorem State.giveBack_initialized (s : State) (r : ResultCode) :
    (s.giveBack r).initialized = s.initialized := rfl
@[simp] theorem State.giveBack_function (s : State) (r : ResultCode) : (s.giveBack r).function = s.function := rfl
@[simp] theorem State.giveBack_control (s : State) (r : ResultCode) : (s.giveBack r).control = s.control := rfl
@[simp] theorem State.giveBack_mode (s : State) (r : ResultCode) : (s.giveBack r).mode = s.mode := rfl
@[simp] theorem State.giveBack_col (s : State) (r : ResultCode) : (s.giveBack r).col = s.col := rfl
@[simp] theorem State.giveBack_row (s : State) (r : ResultCode) : (s.giveBack r).row = s.row := rfl
@[simp] theorem State.giveBack_backlightOn (s : State) (r : ResultCode) :
    (s.giveBack r).backlightOn = s.backlightOn := rfl
@[simp] theorem State.giveBack_inbox (s : State) (r : ResultCode) : (s.giveBack r).inbox = s.inbox := rfl
@[simp] theorem State.giveBack_responses (s : State) (r : ResultCode) : (s.giveBack r).responses = s.responses := rfl
@[simp] theorem State.giveBack_returns (s : State) (r : ResultCode) : (s.giveBack r).returns = s.returns ++ [r] := rfl
@[simp] theorem State.giveBack_trace (s : State) (r : ResultCode) : (s.giveBack r).trace = s.trace := rfl
@[simp] theorem State.giveBack_busScript (s : State) (r : ResultCode) : (s.giveBack r).busScript = s.busScript := rfl
@[simp] theorem State.giveBack_busDraws (s : State) (r : ResultCode) : (s.giveBack r).busDraws = s.busDraws := rfl

/-! `State.putCursor` -/

@[simp] theorem State.putCursor_config (s : State) (p : Position) : (s.putCursor p).config = s.config := rfl
@[simp] theorem State.putCursor_initialized (s : State) (p : Position) :
    (s.putCursor p).initialized = s.initialized := rfl
@[simp] theorem State.putCursor_function (s : State) (p : Position) : (s.putCursor p).function = s.function := rfl
@[simp] theorem State.putCursor_control (s : State) (p : Position) : (s.putCursor p).control = s.control := rfl
@[simp] theorem State.putCursor_mode (s : State) (p : Position) : (s.putCursor p).mode = s.mode := rfl
@[simp] theorem State.putCursor_col (s : State) (p : Position) :
    (s.putCursor p).col = some (BitVec.ofNat 7 p.col) := rfl
@[simp] theorem State.putCursor_row (s : State) (p : Position) :
    (s.putCursor p).row = some (BitVec.ofNat 2 p.row) := rfl
@[simp] theorem State.putCursor_backlightOn (s : State) (p : Position) :
    (s.putCursor p).backlightOn = s.backlightOn := rfl
@[simp] theorem State.putCursor_inbox (s : State) (p : Position) : (s.putCursor p).inbox = s.inbox := rfl
@[simp] theorem State.putCursor_responses (s : State) (p : Position) : (s.putCursor p).responses = s.responses := rfl
@[simp] theorem State.putCursor_returns (s : State) (p : Position) : (s.putCursor p).returns = s.returns := rfl
@[simp] theorem State.putCursor_trace (s : State) (p : Position) : (s.putCursor p).trace = s.trace := rfl
@[simp] theorem State.putCursor_busScript (s : State) (p : Position) : (s.putCursor p).busScript = s.busScript := rfl
@[simp] theorem State.putCursor_busDraws (s : State) (p : Position) : (s.putCursor p).busDraws = s.busDraws := rfl

/-! `State.putControl` -/

@[simp] theorem State.putControl_config (s : State) (v : Byte) : (s.putControl v).config = s.config := rfl
@[simp] theorem State.putControl_initialized (s : State) (v : Byte) :
    (s.putControl v).initialized = s.initialized := rfl
@[simp] theorem State.putControl_function (s : State) (v : Byte) : (s.putControl v).function = s.function := rfl
@[simp] theorem State.putControl_control (s : State) (v : Byte) : (s.putControl v).control = some v := rfl
@[simp] theorem State.putControl_mode (s : State) (v : Byte) : (s.putControl v).mode = s.mode := rfl
@[simp] theorem State.putControl_col (s : State) (v : Byte) : (s.putControl v).col = s.col := rfl
@[simp] theorem State.putControl_row (s : State) (v : Byte) : (s.putControl v).row = s.row := rfl
@[simp] theorem State.putControl_backlightOn (s : State) (v : Byte) :
    (s.putControl v).backlightOn = s.backlightOn := rfl
@[simp] theorem State.putControl_inbox (s : State) (v : Byte) : (s.putControl v).inbox = s.inbox := rfl
@[simp] theorem State.putControl_responses (s : State) (v : Byte) : (s.putControl v).responses = s.responses := rfl
@[simp] theorem State.putControl_returns (s : State) (v : Byte) : (s.putControl v).returns = s.returns := rfl
@[simp] theorem State.putControl_trace (s : State) (v : Byte) : (s.putControl v).trace = s.trace := rfl
@[simp] theorem State.putControl_busScript (s : State) (v : Byte) : (s.putControl v).busScript = s.busScript := rfl
@[simp] theorem State.putControl_busDraws (s : State) (v : Byte) : (s.putControl v).busDraws = s.busDraws := rfl

/-! `State.putMode` -/

@[simp] theorem State.putMode_config (s : State) (v : Byte) : (s.putMode v).config = s.config := rfl
@[simp] theorem State.putMode_initialized (s : State) (v : Byte) : (s.putMode v).initialized = s.initialized := rfl
@[simp] theorem State.putMode_function (s : State) (v : Byte) : (s.putMode v).function = s.function := rfl
@[simp] theorem State.putMode_control (s : State) (v : Byte) : (s.putMode v).control = s.control := rfl
@[simp] theorem State.putMode_mode (s : State) (v : Byte) : (s.putMode v).mode = some v := rfl
@[simp] theorem State.putMode_col (s : State) (v : Byte) : (s.putMode v).col = s.col := rfl
@[simp] theorem State.putMode_row (s : State) (v : Byte) : (s.putMode v).row = s.row := rfl
@[simp] theorem State.putMode_backlightOn (s : State) (v : Byte) : (s.putMode v).backlightOn = s.backlightOn := rfl
@[simp] theorem State.putMode_inbox (s : State) (v : Byte) : (s.putMode v).inbox = s.inbox := rfl
@[simp] theorem State.putMode_responses (s : State) (v : Byte) : (s.putMode v).responses = s.responses := rfl
@[simp] theorem State.putMode_returns (s : State) (v : Byte) : (s.putMode v).returns = s.returns := rfl
@[simp] theorem State.putMode_trace (s : State) (v : Byte) : (s.putMode v).trace = s.trace := rfl
@[simp] theorem State.putMode_busScript (s : State) (v : Byte) : (s.putMode v).busScript = s.busScript := rfl
@[simp] theorem State.putMode_busDraws (s : State) (v : Byte) : (s.putMode v).busDraws = s.busDraws := rfl

/-! `State.putBacklight` -/

@[simp] theorem State.putBacklight_config (s : State) (v : Bool) : (s.putBacklight v).config = s.config := rfl
@[simp] theorem State.putBacklight_initialized (s : State) (v : Bool) :
    (s.putBacklight v).initialized = s.initialized := rfl
@[simp] theorem State.putBacklight_function (s : State) (v : Bool) : (s.putBacklight v).function = s.function := rfl
@[simp] theorem State.putBacklight_control (s : State) (v : Bool) : (s.putBacklight v).control = s.control := rfl
@[simp] theorem State.putBacklight_mode (s : State) (v : Bool) : (s.putBacklight v).mode = s.mode := rfl
@[simp] theorem State.putBacklight_col (s : State) (v : Bool) : (s.putBacklight v).col = s.col := rfl
@[simp] theorem State.putBacklight_row (s : State) (v : Bool) : (s.putBacklight v).row = s.row := rfl
@[simp] theorem State.putBacklight_backlightOn (s : State) (v : Bool) : (s.putBacklight v).backlightOn = v := rfl
@[simp] theorem State.putBacklight_inbox (s : State) (v : Bool) : (s.putBacklight v).inbox = s.inbox := rfl
@[simp] theorem State.putBacklight_responses (s : State) (v : Bool) : (s.putBacklight v).responses = s.responses := rfl
@[simp] theorem State.putBacklight_returns (s : State) (v : Bool) : (s.putBacklight v).returns = s.returns := rfl
@[simp] theorem State.putBacklight_trace (s : State) (v : Bool) : (s.putBacklight v).trace = s.trace := rfl
@[simp] theorem State.putBacklight_busScript (s : State) (v : Bool) : (s.putBacklight v).busScript = s.busScript := rfl
@[simp] theorem State.putBacklight_busDraws (s : State) (v : Bool) : (s.putBacklight v).busDraws = s.busDraws := rfl

/-! `State.putInitialized` -/

@[simp] theorem State.putInitialized_config (s : State) (f : Byte) : (s.putInitialized f).config = s.config := rfl
@[simp] theorem State.putInitialized_initialized (s : State) (f : Byte) : (s.putInitialized f).initialized = true := rfl
@[simp] theorem State.putInitialized_function (s : State) (f : Byte) : (s.putInitialized f).function = some f := rfl
@[simp] theorem State.putInitialized_control (s : State) (f : Byte) : (s.putInitialized f).control = s.control := rfl
@[simp] theorem State.putInitialized_mode (s : State) (f : Byte) : (s.putInitialized f).mode = s.mode := rfl
@[simp] theorem State.putInitialized_col (s : State) (f : Byte) : (s.putInitialized f).col = s.col := rfl
@[simp] theorem State.putInitialized_row (s : State) (f : Byte) : (s.putInitialized f).row = s.row := rfl
@[simp] theorem State.putInitialized_backlightOn (s : State) (f : Byte) :
    (s.putInitialized f).backlightOn = s.backlightOn := rfl
@[simp] theorem State.putInitialized_inbox (s : State) (f : Byte) : (s.putInitialized f).inbox = s.inbox := rfl
@[simp] theorem State.putInitialized_responses (s : State) (f : Byte) :
    (s.putInitialized f).responses = s.responses := rfl
@[simp] theorem State.putInitialized_returns (s : State) (f : Byte) : (s.putInitialized f).returns = s.returns := rfl
@[simp] theorem State.putInitialized_trace (s : State) (f : Byte) : (s.putInitialized f).trace = s.trace := rfl
@[simp] theorem State.putInitialized_busScript (s : State) (f : Byte) :
    (s.putInitialized f).busScript = s.busScript := rfl
@[simp] theorem State.putInitialized_busDraws (s : State) (f : Byte) : (s.putInitialized f).busDraws = s.busDraws := rfl

/-! `State.putInbox` -/

@[simp] theorem State.putInbox_config (s : State) (rest : List Command) : (s.putInbox rest).config = s.config := rfl
@[simp] theorem State.putInbox_initialized (s : State) (rest : List Command) :
    (s.putInbox rest).initialized = s.initialized := rfl
@[simp] theorem State.putInbox_function (s : State) (rest : List Command) :
    (s.putInbox rest).function = s.function := rfl
@[simp] theorem State.putInbox_control (s : State) (rest : List Command) : (s.putInbox rest).control = s.control := rfl
@[simp] theorem State.putInbox_mode (s : State) (rest : List Command) : (s.putInbox rest).mode = s.mode := rfl
@[simp] theorem State.putInbox_col (s : State) (rest : List Command) : (s.putInbox rest).col = s.col := rfl
@[simp] theorem State.putInbox_row (s : State) (rest : List Command) : (s.putInbox rest).row = s.row := rfl
@[simp] theorem State.putInbox_backlightOn (s : State) (rest : List Command) :
    (s.putInbox rest).backlightOn = s.backlightOn := rfl
@[simp] theorem State.putInbox_inbox (s : State) (rest : List Command) : (s.putInbox rest).inbox = rest := rfl
@[simp] theorem State.putInbox_responses (s : State) (rest : List Command) :
    (s.putInbox rest).responses = s.responses := rfl
@[simp] theorem State.putInbox_returns (s : State) (rest : List Command) : (s.putInbox rest).returns = s.returns := rfl
@[simp] theorem State.putInbox_trace (s : State) (rest : List Command) : (s.putInbox rest).trace = s.trace := rfl
@[simp] theorem State.putInbox_busScript (s : State) (rest : List Command) :
    (s.putInbox rest).busScript = s.busScript := rfl
@[simp] theorem State.putInbox_busDraws (s : State) (rest : List Command) :
    (s.putInbox rest).busDraws = s.busDraws := rfl

/-! `State.record` -/

@[simp] theorem State.record_config (s : State) (e : Event) : (s.record e).config = s.config := rfl
@[simp] theorem State.record_initialized (s : State) (e : Event) : (s.record e).initialized = s.initialized := rfl
@[simp] theorem State.record_function (s : State) (e : Event) : (s.record e).function = s.function := rfl
@[simp] theorem State.record_control (s : State) (e : Event) : (s.record e).control = s.control := rfl
@[simp] theorem State.record_mode (s : State) (e : Event) : (s.record e).mode = s.mode := rfl
@[simp] theorem State.record_col (s : State) (e : Event) : (s.record e).col = s.col := rfl
@[simp] theorem State.record_row (s : State) (e : Event) : (s.record e).row = s.row := rfl
@[simp] theorem State.record_backlightOn (s : State) (e : Event) : (s.record e).backlightOn = s.backlightOn := rfl
@[simp] theorem State.record_inbox (s : State) (e : Event) : (s.record e).inbox = s.inbox := rfl
@[simp] theorem State.record_responses (s : State) (e : Event) : (s.record e).responses = s.responses := rfl
@[simp] theorem State.record_returns (s : State) (e : Event) : (s.record e).returns = s.returns := rfl
@[simp] theorem State.record_trace (s : State) (e : Event) : (s.record e).trace = s.trace ++ [e] := rfl
@[simp] theorem State.record_busScript (s : State) (e : Event) : (s.record e).busScript = s.busScript := rfl
@[simp] theorem State.record_busDraws (s : State) (e : Event) : (s.record e).busDraws = s.busDraws := rfl

/-! `State.drawn` -/

@[simp] theorem State.drawn_config (s : State) : s.drawn.config = s.config := rfl
@[simp] theorem State.drawn_initialized (s : State) : s.drawn.initialized = s.initialized := rfl
@[simp] theorem State.drawn_function (s : State) : s.drawn.function = s.function := rfl
@[simp] theorem State.drawn_control (s : State) : s.drawn.control = s.control := rfl
@[simp] theorem State.drawn_mode (s : State) : s.drawn.mode = s.mode := rfl
@[simp] theorem State.drawn_col (s : State) : s.drawn.col = s.col := rfl
@[simp] theorem State.drawn_row (s : State) : s.drawn.row = s.row := rfl
@[simp] theorem State.drawn_backlightOn (s : State) : s.drawn.backlightOn = s.backlightOn := rfl
@[simp] theorem State.drawn_inbox (s : State) : s.drawn.inbox = s.inbox := rfl
@[simp] theorem State.drawn_responses (s : State) : s.drawn.responses = s.responses := rfl
@[simp] theorem State.drawn_returns (s : State) : s.drawn.returns = s.returns := rfl
@[simp] theorem State.drawn_trace (s : State) : s.drawn.trace = s.trace := rfl
@[simp] theorem State.drawn_busScript (s : State) : s.drawn.busScript = s.busScript.tail := rfl
@[simp] theorem State.drawn_busDraws (s : State) : s.drawn.busDraws = s.busDraws + 1 := rfl

/-! `State.afterBus` -/

@[simp] theorem State.afterBus_config (s : State) (n : Nat) (es : List Event) :
    (s.afterBus n es).config = s.config := rfl
@[simp] theorem State.afterBus_initialized (s : State) (n : Nat) (es : List Event) :
    (s.afterBus n es).initialized = s.initialized := rfl
@[simp] theorem State.afterBus_function (s : State) (n : Nat) (es : List Event) :
    (s.afterBus n es).function = s.function := rfl
@[simp] theorem State.afterBus_control (s : State) (n : Nat) (es : List Event) :
    (s.afterBus n es).control = s.control := rfl
@[simp] theorem State.afterBus_mode (s : State) (n : Nat) (es : List Event) : (s.afterBus n es).mode = s.mode := rfl
@[simp] theorem State.afterBus_col (s : State) (n : Nat) (es : List Event) : (s.afterBus n es).col = s.col := rfl
@[simp] theorem State.afterBus_row (s : State) (n : Nat) (es : List Event) : (s.afterBus n es).row = s.row := rfl
@[simp] theorem State.afterBus_backlightOn (s : State) (n : Nat) (es : List Event) :
    (s.afterBus n es).backlightOn = s.backlightOn := rfl
@[simp] theorem State.afterBus_inbox (s : State) (n : Nat) (es : List Event) : (s.afterBus n es).inbox = s.inbox := rfl
@[simp] theorem State.afterBus_responses (s : State) (n : Nat) (es : List Event) :
    (s.afterBus n es).responses = s.responses := rfl
@[simp] theorem State.afterBus_returns (s : State) (n : Nat) (es : List Event) :
    (s.afterBus n es).returns = s.returns := rfl
@[simp] theorem State.afterBus_trace (s : State) (n : Nat) (es : List Event) :
    (s.afterBus n es).trace = s.trace ++ es := rfl
@[simp] theorem State.afterBus_busScript (s : State) (n : Nat) (es : List Event) :
    (s.afterBus n es).busScript = s.busScript.drop n := rfl
@[simp] theorem State.afterBus_busDraws (s : State) (n : Nat) (es : List Event) :
    (s.afterBus n es).busDraws = s.busDraws + n := rfl

end Sys2Proof.Machine
end

