-- ==== Sys2Proof/Laws/Ops.lean ====
section
/-! SUPPORT. What each shared operation can do, said once: the primitives and plans (their frame, and what they do when
every response is ACK), the checks, and the ends of a request. -/

namespace Sys2Proof.Machine

/-! ### Named updates as records -/

theorem State.afterBus_zero (s : State) : s.afterBus 0 [] = s := by
  cases s; simp [State.afterBus]

theorem State.afterBus_afterBus (s : State) (n m : Nat) (es fs : List Event) :
    (s.afterBus n es).afterBus m fs = s.afterBus (n + m) (es ++ fs) := by
  simp [State.afterBus, Nat.add_assoc]

@[simp] theorem State.afterBus_wr (s : State) (n : Nat) (es : List Event) (b : Byte) (r : BusResponse) :
    (s.afterBus n es).wr b r = s.wr b r := rfl

@[simp] theorem State.afterBus_responseAt (s : State) (n k : Nat) (es : List Event) :
    (s.afterBus n es).responseAt k = s.responseAt (n + k) := by
  simp [State.responseAt, Nat.add_assoc]

theorem AcksAhead.mono {s : State} {n m : Nat} (h : AcksAhead s n) (hm : m ≤ n) : AcksAhead s m :=
  fun k hk => h k (by omega)

theorem AcksAhead.afterBus {s : State} {n m : Nat} (h : AcksAhead s (n + m)) (es : List Event) :
    AcksAhead (s.afterBus n es) m := by
  intro k hk
  rw [State.afterBus_responseAt]
  exact h (n + k) (by omega)

/-! ### Primitives -/

theorem runPrim_write (s : State) (b : Byte) :
    runPrim (.write b) s = (writeResult (s.responseAt 0), s.afterBus 1 [s.wr b (s.responseAt 0)]) := by
  simp [runPrim, State.record, State.drawn, State.afterBus, State.wr, List.drop_one]

theorem runPrim_probe (s : State) :
    runPrim .probe s = (probeResult (s.responseAt 0),
      s.afterBus 1 [.probe s.config.busIdentifier s.config.deviceAddress (s.responseAt 0)]) := by
  simp [runPrim, State.record, State.drawn, State.afterBus, List.drop_one]

theorem runPrim_delay (s : State) (t : Nat) : runPrim (.delay t) s = (.ok, s.afterBus 0 [.delay t]) := by
  simp [runPrim, State.record, State.afterBus]

/-! ### Plans -/

@[simp] theorem runPlan_nil (s : State) : runPlan [] s = (.ok, s) := rfl

theorem runPlan_cons (p : Prim) (ps : List Prim) (s : State) :
    runPlan (p :: ps) s = if (runPrim p s).1 = .ok then runPlan ps (runPrim p s).2 else runPrim p s := by
  simp only [runPlan]

/-- A plan in two parts: the second runs only when the first returned OK. -/
theorem runPlan_append (ps qs : List Prim) (s : State) :
    runPlan (ps ++ qs) s = if (runPlan ps s).1 = .ok then runPlan qs (runPlan ps s).2 else runPlan ps s := by
  induction ps generalizing s with
  | nil => simp
  | cons p ps ih =>
    rw [List.cons_append, runPlan_cons, runPlan_cons]
    by_cases h : (runPrim p s).1 = .ok
    · simp [h, ih]
    · simp [h]

/-- The frame of a plan: it changes the trace and the environment's draws, and nothing else. -/
theorem runPlan_frame (ps : List Prim) (s : State) : ∃ n es, (runPlan ps s).2 = s.afterBus n es := by
  induction ps generalizing s with
  | nil => exact ⟨0, [], (s.afterBus_zero).symm⟩
  | cons p ps ih =>
    obtain ⟨n, es, h⟩ : ∃ n es, (runPrim p s).2 = s.afterBus n es := by
      cases p with
      | write b => exact ⟨_, _, by rw [runPrim_write]⟩
      | probe => exact ⟨_, _, by rw [runPrim_probe]⟩
      | delay t => exact ⟨_, _, by rw [runPrim_delay]⟩
    rw [runPlan_cons]
    split
    · obtain ⟨m, fs, hk⟩ := ih (runPrim p s).2
      exact ⟨n + m, es ++ fs, by rw [hk, h, State.afterBus_afterBus]⟩
    · exact ⟨n, es, h⟩

/-- How many bus transactions a plan makes when none fails. -/
def transactions : List Prim → Nat
  | [] => 0
  | .write _ :: ps => 1 + transactions ps
  | .probe :: ps => 1 + transactions ps
  | .delay _ :: ps => transactions ps

/-- The events of a plan whose transactions are all acknowledged. -/
def ackedEvents (s : State) : List Prim → List Event
  | [] => []
  | .write b :: ps => s.w b :: ackedEvents s ps
  | .probe :: ps => .probe s.config.busIdentifier s.config.deviceAddress .ack :: ackedEvents s ps
  | .delay t :: ps => .delay t :: ackedEvents s ps

theorem ackedEvents_congr {s t : State} (h : t.config = s.config) (ps : List Prim) :
    ackedEvents t ps = ackedEvents s ps := by
  induction ps with
  | nil => rfl
  | cons p ps ih => cases p <;> simp [ackedEvents, ih, State.w, State.wr, h]

theorem transactions_append (ps qs : List Prim) : transactions (ps ++ qs) = transactions ps + transactions qs := by
  induction ps with
  | nil => simp [transactions]
  | cons p ps ih => cases p <;> simp [transactions, ih, Nat.add_assoc]

theorem ackedEvents_append (s : State) (ps qs : List Prim) :
    ackedEvents s (ps ++ qs) = ackedEvents s ps ++ ackedEvents s qs := by
  induction ps with
  | nil => rfl
  | cons p ps ih => cases p <;> simp [ackedEvents, ih]

/-- When every transaction is acknowledged a plan runs to its end. -/
theorem runPlan_acked (ps : List Prim) (s : State) (h : AcksAhead s (transactions ps)) :
    runPlan ps s = (.ok, s.afterBus (transactions ps) (ackedEvents s ps)) := by
  induction ps generalizing s with
  | nil => simp [transactions, ackedEvents, State.afterBus_zero]
  | cons p ps ih =>
    cases p with
    | write b =>
      have h0 : s.responseAt 0 = .ack := h 0 (by simp [transactions])
      rw [runPlan_cons, runPrim_write, h0]
      simp only [writeResult, if_true]
      rw [ih _ (AcksAhead.afterBus (n := 1) h _), State.afterBus_afterBus,
        ackedEvents_congr (s := s) (by simp) ps]
      simp [transactions, ackedEvents, State.w]
    | probe =>
      have h0 : s.responseAt 0 = .ack := h 0 (by simp [transactions])
      rw [runPlan_cons, runPrim_probe, h0]
      simp only [probeResult, if_true]
      rw [ih _ (AcksAhead.afterBus (n := 1) h _), State.afterBus_afterBus,
        ackedEvents_congr (s := s) (by simp) ps]
      simp [transactions, ackedEvents]
    | delay t =>
      rw [runPlan_cons, runPrim_delay]
      simp only [if_true]
      rw [ih _ (AcksAhead.afterBus (n := 0) (by simpa [transactions] using h) _), State.afterBus_afterBus,
        ackedEvents_congr (s := s) (by simp) ps]
      simp [transactions, ackedEvents]

/-- Everything a plan can do: every transaction is acknowledged and it runs to its end, or one is the first that is not,
and the plan ends there with its result. -/
theorem runPlan_cases (ps : List Prim) (s : State) :
    (AcksAhead s (transactions ps) ∧
      runPlan ps s = (.ok, s.afterBus (transactions ps) (ackedEvents s ps))) ∨
    ∃ front p back r, ps = front ++ p :: back ∧ AcksAhead s (transactions front) ∧
      s.responseAt (transactions front) = r ∧ r ≠ .ack ∧
      ((∃ b, p = .write b ∧ runPlan ps s =
          (writeResult r, s.afterBus (transactions front + 1) (ackedEvents s front ++ [s.wr b r]))) ∨
        (p = .probe ∧ runPlan ps s = (probeResult r, s.afterBus (transactions front + 1) (ackedEvents s front ++
          [.probe s.config.busIdentifier s.config.deviceAddress r])))) := by
  induction ps generalizing s with
  | nil => exact .inl ⟨fun k hk => absurd hk (Nat.not_lt_zero k), by simp [transactions, ackedEvents, State.afterBus_zero]⟩
  | cons p ps ih =>
    by_cases h : ∃ r, s.responseAt 0 = r ∧ r ≠ .ack ∧ transactions [p] = 1
    · obtain ⟨r, h0, hr, hp⟩ := h
      refine .inr ⟨[], p, ps, r, rfl, fun k hk => absurd hk (Nat.not_lt_zero k), h0, hr, ?_⟩
      cases p with
      | delay t => cases hp
      | write b =>
        refine .inl ⟨b, rfl, ?_⟩
        rw [runPlan_cons, runPrim_write, h0]
        cases r <;> simp [writeResult, transactions, ackedEvents] at hr ⊢
      | probe =>
        refine .inr ⟨rfl, ?_⟩
        rw [runPlan_cons, runPrim_probe, h0]
        cases r <;> simp [probeResult, transactions, ackedEvents] at hr ⊢
    · have hack : AcksAhead s (transactions [p]) := by
        intro k hk
        cases p with
        | delay t => exact absurd hk (Nat.not_lt_zero k)
        | write b =>
          obtain rfl : k = 0 := by simpa [transactions] using hk
          exact Decidable.byContradiction fun hne => h ⟨_, rfl, hne, rfl⟩
        | probe =>
          obtain rfl : k = 0 := by simpa [transactions] using hk
          exact Decidable.byContradiction fun hne => h ⟨_, rfl, hne, rfl⟩
      have hrun : runPlan (p :: ps) s = runPlan ps (s.afterBus (transactions [p]) (ackedEvents s [p])) := by
        rw [← List.singleton_append, runPlan_append, runPlan_acked [p] s hack]
        simp
      have hall : ∀ qs : List Prim, AcksAhead (s.afterBus (transactions [p]) (ackedEvents s [p])) (transactions qs) →
          AcksAhead s (transactions (p :: qs)) := by
        intro qs hq k hk
        rw [← List.singleton_append, transactions_append] at hk
        by_cases hlt : k < transactions [p]
        · exact hack k hlt
        · have := hq (k - transactions [p]) (by omega)
          rwa [State.afterBus_responseAt, Nat.add_sub_cancel' (by omega)] at this
      have hcons : ∀ qs : List Prim, transactions [p] + transactions qs = transactions (p :: qs) ∧
          ackedEvents s [p] ++ ackedEvents s qs = ackedEvents s (p :: qs) := fun qs => by
        exact ⟨(transactions_append [p] qs).symm, (ackedEvents_append s [p] qs).symm⟩
      have hsame : ∀ qs, ackedEvents (s.afterBus (transactions [p]) (ackedEvents s [p])) qs = ackedEvents s qs :=
        ackedEvents_congr rfl
      rcases ih (s.afterBus (transactions [p]) (ackedEvents s [p])) with ⟨ha, he⟩ | ⟨front, q, back, r, rfl, ha, h0, hr, he⟩
      · refine .inl ⟨hall ps ha, ?_⟩
        rw [hrun, he, State.afterBus_afterBus, hsame, (hcons ps).1, (hcons ps).2]
      · refine .inr ⟨p :: front, q, back, r, rfl, hall front ha, ?_, hr, ?_⟩
        · rw [State.afterBus_responseAt, (hcons front).1] at h0
          exact h0
        · simp only [hrun]
          rcases he with ⟨b, rfl, he⟩ | ⟨rfl, he⟩
          · refine .inl ⟨b, rfl, ?_⟩
            rw [he, State.afterBus_afterBus, hsame, ← List.append_assoc, (hcons front).2,
              ← Nat.add_assoc, (hcons front).1]
            rfl
          · refine .inr ⟨rfl, ?_⟩
            rw [he, State.afterBus_afterBus, hsame, ← List.append_assoc, (hcons front).2,
              ← Nat.add_assoc, (hcons front).1]
            rfl

/-! ### Checks and ends -/

@[simp] theorem endRequest_eq (r : ResultCode) (s : State) : endRequest r s = .next (s.deliver r) := rfl

theorem requireInitialized_of_initialized {s : State} (h : s.initialized = true) (go : Answer) :
    requireInitialized s go = go := by
  simp [requireInitialized, h]

theorem requireInitialized_of_not {s : State} (h : s.initialized = false) (go : Answer) :
    requireInitialized s go = .next (s.deliver .invalidState) := by
  simp [requireInitialized, h]

/-- `require` answers a next state in two ways: the check failed, or what follows answered it. -/
theorem requireInitialized_next {s t : State} {go : Answer} (h : requireInitialized s go = .next t) :
    (s.initialized = false ∧ t = s.deliver .invalidState) ∨ (s.initialized = true ∧ go = .next t) := by
  cases hi : s.initialized with
  | true => exact .inr ⟨rfl, by rwa [requireInitialized_of_initialized hi] at h⟩
  | false =>
    rw [requireInitialized_of_not hi] at h
    cases h
    exact .inl ⟨rfl, rfl⟩

@[simp] theorem readField_some {α : Type} (f : Field) (x : α) (go : α → Answer) :
    readField f (some x) go = go x := rfl

/-- A field read answers a next state only from a value. -/
theorem readField_next {α : Type} {f : Field} {v : Option α} {go : α → Answer} {t : State}
    (h : readField f v go = .next t) : ∃ x, v = some x ∧ go x = .next t := by
  cases v with
  | none => cases h
  | some x => exact ⟨x, rfl, h⟩

theorem transmit_eq (plan : List Prim) (s : State) (go : State → Answer) :
    transmit plan s go =
      if (runPlan plan s).1 = .ok then go (runPlan plan s).2
      else .next ((runPlan plan s).2.deliver (runPlan plan s).1) := rfl

theorem transmitCommit_eq (plan : List Prim) (commit : State → State) (s : State) :
    transmitCommit plan commit s =
      .next ((if (runPlan plan s).1 = .ok then commit (runPlan plan s).2 else (runPlan plan s).2).deliver
        (runPlan plan s).1) := rfl

theorem runTransfer_eq (plan : List Prim) (s : State) :
    runTransfer plan s = .next ((runPlan plan s).2.giveBack (runPlan plan s).1) := rfl

/-- A request whose traffic is all acknowledged goes on. -/
theorem transmit_acked {plan : List Prim} {s : State} (go : State → Answer)
    (h : AcksAhead s (transactions plan)) :
    transmit plan s go = go (s.afterBus (transactions plan) (ackedEvents s plan)) := by
  rw [transmit_eq, runPlan_acked plan s h]
  simp

/-- A request whose traffic is all acknowledged commits and ends with OK. -/
theorem transmitCommit_acked {plan : List Prim} {s : State} (commit : State → State)
    (h : AcksAhead s (transactions plan)) :
    transmitCommit plan commit s =
      .next ((commit (s.afterBus (transactions plan) (ackedEvents s plan))).deliver .ok) := by
  rw [transmitCommit_eq, runPlan_acked plan s h]
  simp

/-- A protocol-engine call whose traffic is all acknowledged gives back OK. -/
theorem runTransfer_acked {plan : List Prim} {s : State} (h : AcksAhead s (transactions plan)) :
    runTransfer plan s = .next ((s.afterBus (transactions plan) (ackedEvents s plan)).giveBack .ok) := by
  rw [runTransfer_eq, runPlan_acked plan s h]

/-! ### The protocol engine -/

@[simp] theorem transactions_writeNibble (bl : Bool) (n : Byte) (m : Mode) :
    transactions (writeNibble bl n m) = 3 := rfl

@[simp] theorem transactions_writeByte (bl : Bool) (v : Byte) (m : Mode) : transactions (writeByte bl v m) = 6 := rfl

@[simp] theorem transactions_cmd (bl : Bool) (v : Byte) : transactions (cmd bl v) = 6 := rfl

@[simp] theorem transactions_data (bl : Bool) (c : Byte) : transactions (data bl c) = 6 := rfl

/-- EN is bit 2 of the payload and the base byte has it 0, so the EN-low byte is the base byte (R91). -/
theorem payloadBase_and_not_enable (bl : Bool) (n : Byte) (m : Mode) :
    payloadBase bl n m &&& ~~~enableBit = payloadBase bl n m := by
  revert n; cases bl <;> cases m <;> decide

theorem transactions_initPlan (bl : Bool) (f : Byte) : transactions (initPlan bl f) = 42 := by
  simp [initPlan, transactions_append, transactions]

/-- The events of an acknowledged nibble transfer are `N(x)` of R145. -/
theorem ackedEvents_writeNibble (s : State) (bl : Bool) (n : Byte) (m : Mode) :
    ackedEvents s (writeNibble bl n m) = s.nib bl ((n &&& 0xF0) ||| m.rs) := by
  simp only [writeNibble, payloadBase_and_not_enable]
  cases bl <;> cases m <;>
    simp [ackedEvents, State.nib, payloadBase, Mode.rs, bitIf, enableBit, rsBit, backlightBit, tPre, tEn]

theorem ackedEvents_cmd (s : State) (bl : Bool) (v : Byte) :
    ackedEvents s (cmd bl v) = s.cmdEvents bl v (settle v .cmd) := by
  simp [cmd, writeByte, ackedEvents_append, ackedEvents_writeNibble, ackedEvents, State.cmdEvents, Mode.rs,
    BitVec.and_assoc]

theorem ackedEvents_data (s : State) (bl : Bool) (c : Byte) : ackedEvents s (data bl c) = s.dataEvents bl c := by
  simp [data, writeByte, ackedEvents_append, ackedEvents_writeNibble, ackedEvents, State.dataEvents, Mode.rs, rsBit,
    tStd, BitVec.and_assoc]

/-- The events of an acknowledged INIT are the trace of R145. -/
theorem ackedEvents_initPlan (s : State) :
    ackedEvents s (initPlan s.backlightOn (functionFor s.config)) = s.initEvents := by
  have hf : functionFor s.config = if s.config.rows = 2 ∨ s.config.rows = 4 then 0x08 else 0x00 := by
    simp [functionFor, bitIf, bitN]
  have h : functionFor s.config = 0x08 ∨ functionFor s.config = 0x00 := by rw [hf]; split <;> simp
  unfold State.initEvents
  rw [← hf]
  generalize functionFor s.config = f at h
  simp only [initPlan, ackedEvents_append, ackedEvents_cmd, ackedEvents_writeNibble, State.cmdEvents, ackedEvents,
    List.append_assoc]
  rcases h with rfl | rfl <;> rfl

end Sys2Proof.Machine
end

