-- ==== Sys2Proof/Laws/Exec.lean ====
section
/-! SUPPORT. Inversion: what a request or a protocol-engine call can have done when exec answers a next state. A request
either ended at a check, or its plan ran from its starting state and then it failed, missed a row table, or committed. -/

namespace Sys2Proof.Machine

/-! ### The shared ends of a request -/

theorem transmitCommit_next {plan : List Prim} {commit : State → State} {s t : State}
    (h : transmitCommit plan commit s = .next t) : ∃ r n es, runPlan plan s = (r, s.afterBus n es) ∧
      ((r ≠ .ok ∧ t = (s.afterBus n es).deliver r) ∨ (r = .ok ∧ t = (commit (s.afterBus n es)).deliver .ok)) := by
  obtain ⟨n, es, hp⟩ := runPlan_frame plan s
  refine ⟨(runPlan plan s).1, n, es, by rw [← hp], ?_⟩
  rw [transmitCommit_eq] at h
  cases h
  rw [hp]
  by_cases hr : (runPlan plan s).1 = .ok
  · exact .inr ⟨hr, by simp [hr]⟩
  · exact .inl ⟨hr, by simp [hr]⟩

theorem transmit_next {plan : List Prim} {go : State → Answer} {s t : State} (h : transmit plan s go = .next t) :
    ∃ r n es, runPlan plan s = (r, s.afterBus n es) ∧
      ((r ≠ .ok ∧ t = (s.afterBus n es).deliver r) ∨ (r = .ok ∧ go (s.afterBus n es) = .next t)) := by
  obtain ⟨n, es, hp⟩ := runPlan_frame plan s
  refine ⟨(runPlan plan s).1, n, es, by rw [← hp], ?_⟩
  rw [transmit_eq, hp] at h
  by_cases hr : (runPlan plan s).1 = .ok
  · exact .inr ⟨hr, by simpa [hr] using h⟩
  · refine .inl ⟨hr, ?_⟩
    rw [if_neg hr] at h
    cases h
    rfl

/-- The committed state of the cursor step at the end of WRITE_CHAR and the shifts; none is a row-table miss. -/
def cursorCommit (s : State) : Option State :=
  (cursorStep s.config (s.mode.getD 0) ⟨(s.col.getD 0).toNat, (s.row.getD 0).toNat⟩).map fun p => s.putCursor p

theorem stepCursorAndEnd_next {s t : State} (h : stepCursorAndEnd s = .next t) :
    (∃ u, cursorCommit s = some u ∧ t = u.deliver .ok) ∨ (cursorCommit s = none ∧ t = s.deliver .invalidState) := by
  obtain ⟨m, hm, h⟩ := readField_next h
  obtain ⟨x, hx, h⟩ := readField_next h
  obtain ⟨y, hy, h⟩ := readField_next h
  simp only [cursorCommit, hm, hx, hy, Option.getD_some]
  cases hc : cursorStep s.config m ⟨x.toNat, y.toNat⟩ with
  | none =>
    simp only [hc] at h
    cases h
    exact .inr ⟨rfl, rfl⟩
  | some p =>
    simp only [hc] at h
    cases h
    exact .inl ⟨_, rfl, rfl⟩

/-! ### Requests -/

/-- The state a request's plan starts from: a backlight request has written its flag (R183). -/
def requestStart : Instr → State → State
  | .backlightOn, s => s.putBacklight true
  | .backlightOff, s => s.putBacklight false
  | _, s => s

/-- The bus traffic of a request, from the state it starts in. -/
def requestPlan : Instr → State → List Prim
  | .init _, s => initPlan s.backlightOn (functionFor s.config)
  | .probe, _ => [.probe]
  | .writeChar c, s => data s.backlightOn c
  | .home, s => cmd s.backlightOn baseHome
  | .clear, s => cmd s.backlightOn baseClear
  | .setCursor x y, s => cmd s.backlightOn (setDdramByte x y)
  | .displayOn, s => cmd s.backlightOn (baseDisplayControl ||| withBit (s.control.getD 0) bitD true)
  | .displayOff, s => cmd s.backlightOn (baseDisplayControl ||| withBit (s.control.getD 0) bitD false)
  | .cursorOn, s => cmd s.backlightOn (baseDisplayControl ||| withBit (s.control.getD 0) bitC true)
  | .cursorOff, s => cmd s.backlightOn (baseDisplayControl ||| withBit (s.control.getD 0) bitC false)
  | .blinkOn, s => cmd s.backlightOn (baseDisplayControl ||| withBit (s.control.getD 0) bitB true)
  | .blinkOff, s => cmd s.backlightOn (baseDisplayControl ||| withBit (s.control.getD 0) bitB false)
  | .shiftLeft, s => cmd s.backlightOn (baseShift ||| bitSC)
  | .shiftRight, s => cmd s.backlightOn (baseShift ||| (bitSC ||| bitRL))
  | .leftToRight, s => cmd s.backlightOn (baseEntryMode ||| withBit (s.mode.getD 0) bitID true)
  | .rightToLeft, s => cmd s.backlightOn (baseEntryMode ||| withBit (s.mode.getD 0) bitID false)
  | .backlightOn, s => cmd true (setDdramByte (s.col.getD 0) (s.row.getD 0))
  | .backlightOff, s => cmd false (setDdramByte (s.col.getD 0) (s.row.getD 0))
  | _, _ => []

/-- What a request commits once its traffic has succeeded, from the state after it; none is a row-table miss. -/
def requestCommit : Instr → State → Option State
  | .init _, u => some (initCommit u)
  | .writeChar _, u => cursorCommit u
  | .home, u => some (u.putCursor ⟨0, 0⟩)
  | .clear, u => some ((u.putCursor ⟨0, 0⟩).putMode (withBit (u.mode.getD 0) bitID true))
  | .setCursor x y, u => some (u.putCursor ⟨x.toNat, y.toNat⟩)
  | .displayOn, u => some (u.putControl (withBit (u.control.getD 0) bitD true))
  | .displayOff, u => some (u.putControl (withBit (u.control.getD 0) bitD false))
  | .cursorOn, u => some (u.putControl (withBit (u.control.getD 0) bitC true))
  | .cursorOff, u => some (u.putControl (withBit (u.control.getD 0) bitC false))
  | .blinkOn, u => some (u.putControl (withBit (u.control.getD 0) bitB true))
  | .blinkOff, u => some (u.putControl (withBit (u.control.getD 0) bitB false))
  | .shiftLeft, u => cursorCommit u
  | .shiftRight, u => cursorCommit u
  | .leftToRight, u => some (u.putMode (withBit (u.mode.getD 0) bitID true))
  | .rightToLeft, u => some (u.putMode (withBit (u.mode.getD 0) bitID false))
  | _, u => some u

/-- What a request that got past its checks did: its plan ran, and it failed, committed, or missed a row table. -/
def Ran (i : Instr) (s t : State) : Prop :=
  ∃ r n es, runPlan (requestPlan i s) (requestStart i s) = (r, (requestStart i s).afterBus n es) ∧
    ((r ≠ .ok ∧ t = ((requestStart i s).afterBus n es).deliver r) ∨
      (r = .ok ∧ (∃ u, requestCommit i ((requestStart i s).afterBus n es) = some u ∧ t = u.deliver .ok)) ∨
      (r = .ok ∧ requestCommit i ((requestStart i s).afterBus n es) = none ∧
        t = ((requestStart i s).afterBus n es).deliver .invalidState))

theorem Ran.of_transmitCommit {i : Instr} {s t : State} {commit : State → State}
    (h : transmitCommit (requestPlan i s) commit (requestStart i s) = .next t)
    (hc : ∀ n es, requestCommit i ((requestStart i s).afterBus n es) = some (commit ((requestStart i s).afterBus n es))) :
    Ran i s t := by
  obtain ⟨r, n, es, hp, h⟩ := transmitCommit_next h
  refine ⟨r, n, es, hp, ?_⟩
  rcases h with h | ⟨hr, ht⟩
  · exact .inl h
  · exact .inr (.inl ⟨hr, _, hc n es, ht⟩)

theorem Ran.of_cursorStep {i : Instr} {s t : State}
    (h : transmit (requestPlan i s) (requestStart i s) stepCursorAndEnd = .next t)
    (hc : ∀ u, requestCommit i u = cursorCommit u) : Ran i s t := by
  obtain ⟨r, n, es, hp, h⟩ := transmit_next h
  refine ⟨r, n, es, hp, ?_⟩
  rcases h with h | ⟨hr, h⟩
  · exact .inl h
  · rw [hc]
    rcases stepCursorAndEnd_next h with h | h
    · exact .inr (.inl ⟨hr, h⟩)
    · exact .inr (.inr ⟨hr, h⟩)

theorem setControl_ran {i : Instr} {bit : Byte} {on : Bool} {s t : State} (h : setControl bit on s = .next t)
    (hs : requestStart i s = s)
    (hp : requestPlan i s = cmd s.backlightOn (baseDisplayControl ||| withBit (s.control.getD 0) bit on))
    (hc : ∀ u, requestCommit i u = some (u.putControl (withBit (u.control.getD 0) bit on))) :
    (s.initialized = false ∧ t = s.deliver .invalidState) ∨ (s.initialized = true ∧ Ran i s t) := by
  rcases requireInitialized_next h with h | ⟨hi, h⟩
  · exact .inl h
  · obtain ⟨v, hv, h⟩ := readField_next h
    refine .inr ⟨hi, Ran.of_transmitCommit (commit := State.putControl (withBit v bit on)) ?_ fun n es => ?_⟩
    · rw [hp, hs, hv]
      exact h
    · rw [hc, hs]
      simp [hv]

theorem setEntry_ran {i : Instr} {inc : Bool} {s t : State} (h : setEntry inc s = .next t)
    (hs : requestStart i s = s)
    (hp : requestPlan i s = cmd s.backlightOn (baseEntryMode ||| withBit (s.mode.getD 0) bitID inc))
    (hc : ∀ u, requestCommit i u = some (u.putMode (withBit (u.mode.getD 0) bitID inc))) :
    (s.initialized = false ∧ t = s.deliver .invalidState) ∨ (s.initialized = true ∧ Ran i s t) := by
  rcases requireInitialized_next h with h | ⟨hi, h⟩
  · exact .inl h
  · obtain ⟨v, hv, h⟩ := readField_next h
    refine .inr ⟨hi, Ran.of_transmitCommit (commit := State.putMode (withBit v bitID inc)) ?_ fun n es => ?_⟩
    · rw [hp, hs, hv]
      exact h
    · rw [hc, hs]
      simp [hv]

theorem setBacklight_ran {i : Instr} {v : Bool} {s t : State} (h : setBacklight v s = .next t)
    (hs : requestStart i s = s.putBacklight v)
    (hp : requestPlan i s = cmd v (setDdramByte (s.col.getD 0) (s.row.getD 0)))
    (hc : ∀ u, requestCommit i u = some u) :
    (s.initialized = false ∧ t = s.deliver .invalidState) ∨ (s.initialized = true ∧ Ran i s t) := by
  rcases requireInitialized_next h with h | ⟨hi, h⟩
  · exact .inl h
  · obtain ⟨x, hx, h⟩ := readField_next h
    obtain ⟨y, hy, h⟩ := readField_next h
    refine .inr ⟨hi, Ran.of_transmitCommit (commit := id) ?_ fun n es => hc _⟩
    rw [hp, hs, hx, hy]
    exact h

theorem shift_ran {i : Instr} {flags : Byte} {s t : State} (h : shift flags s = .next t)
    (hs : requestStart i s = s) (hp : requestPlan i s = cmd s.backlightOn (baseShift ||| flags))
    (hc : ∀ u, requestCommit i u = cursorCommit u) :
    (s.initialized = false ∧ t = s.deliver .invalidState) ∨ (s.initialized = true ∧ Ran i s t) := by
  rcases requireInitialized_next h with h | ⟨hi, h⟩
  · exact .inl h
  · exact .inr ⟨hi, Ran.of_cursorStep (by rw [hp, hs]; exact h) hc⟩

/-- INIT: a check failed, or it ran. -/
theorem execInit_next {e : Bool} {s t : State} (h : execInit e s = .next t) :
    (∃ r, r ≠ .ok ∧ t = s.deliver r) ∨ (e = false ∧ s.initialized = false ∧ Ran (.init e) s t) := by
  unfold execInit at h
  cases e with
  | true => exact .inl ⟨.invalidArgument, by simp, by cases h; rfl⟩
  | false =>
    cases hi : s.initialized with
    | true =>
      simp only [hi] at h
      exact .inl ⟨.invalidState, by simp, by cases h; rfl⟩
    | false =>
      simp only [hi] at h
      exact .inr ⟨rfl, rfl, Ran.of_transmitCommit h fun n es => rfl⟩

theorem check_or_ran {i : Instr} {s t : State} {hi : Prop}
    (h : (s.initialized = false ∧ t = s.deliver .invalidState) ∨ (s.initialized = true ∧ Ran i s t)) :
    (∃ r, r ≠ .ok ∧ t = s.deliver r) ∨ ((hi ∨ s.initialized = true) ∧ Ran i s t) := by
  rcases h with ⟨-, ht⟩ | ⟨h, hr⟩
  · exact .inl ⟨.invalidState, by simp, ht⟩
  · exact .inr ⟨.inr h, hr⟩

/-- Every request that answers a next state ended at a check with an error, or is INIT on an encoder not initialized, or
a request on an initialized one, and ran. -/
theorem exec_request_next {i : Instr} {s t : State} (hq : i.isTransfer = false) (h : exec i s = .next t) :
    (∃ r, r ≠ .ok ∧ t = s.deliver r) ∨
      (((i = .init false ∧ s.initialized = false) ∨ s.initialized = true) ∧ Ran i s t) := by
  cases i with
  | init e =>
    rcases execInit_next h with h | ⟨rfl, hi, hr⟩
    · exact .inl h
    · exact .inr ⟨.inl ⟨rfl, hi⟩, hr⟩
  | probe =>
    refine check_or_ran ?_
    rcases requireInitialized_next h with h | ⟨hi, h⟩
    · exact .inl h
    · exact .inr ⟨hi, Ran.of_transmitCommit h fun n es => rfl⟩
  | writeChar c =>
    change execWriteChar c s = .next t at h
    by_cases hc : c = 0
    · simp only [execWriteChar, hc, if_true] at h
      exact .inl ⟨.invalidArgument, by simp, by cases h; rfl⟩
    · simp only [execWriteChar, hc, if_false] at h
      refine check_or_ran ?_
      rcases requireInitialized_next h with h | ⟨hi, h⟩
      · exact .inl h
      · exact .inr ⟨hi, Ran.of_cursorStep h fun u => rfl⟩
  | home =>
    refine check_or_ran ?_
    rcases requireInitialized_next h with h | ⟨hi, h⟩
    · exact .inl h
    · exact .inr ⟨hi, Ran.of_transmitCommit h fun n es => rfl⟩
  | setCursor x y =>
    change execSetCursor x y s = .next t at h
    cases hg : inGeometry s.config x y with
    | false =>
      simp only [execSetCursor, hg] at h
      exact .inl ⟨.invalidArgument, by simp, by cases h; rfl⟩
    | true =>
      simp only [execSetCursor, hg, if_true] at h
      refine check_or_ran ?_
      rcases requireInitialized_next h with h | ⟨hi, h⟩
      · exact .inl h
      · exact .inr ⟨hi, Ran.of_transmitCommit h fun n es => rfl⟩
  | clear =>
    refine check_or_ran ?_
    rcases requireInitialized_next h with h | ⟨hi, h⟩
    · exact .inl h
    · obtain ⟨r, n, es, hp, h⟩ := transmit_next h
      refine .inr ⟨hi, r, n, es, hp, ?_⟩
      rcases h with h | ⟨hr, h⟩
      · exact .inl h
      · obtain ⟨m, hm, h⟩ := readField_next h
        refine .inr (.inl ⟨hr, _, rfl, ?_⟩)
        cases h
        simp only [requestStart]
        rw [hm]
        rfl
  | displayOn => exact check_or_ran (setControl_ran h rfl rfl fun u => rfl)
  | displayOff => exact check_or_ran (setControl_ran h rfl rfl fun u => rfl)
  | cursorOn => exact check_or_ran (setControl_ran h rfl rfl fun u => rfl)
  | cursorOff => exact check_or_ran (setControl_ran h rfl rfl fun u => rfl)
  | blinkOn => exact check_or_ran (setControl_ran h rfl rfl fun u => rfl)
  | blinkOff => exact check_or_ran (setControl_ran h rfl rfl fun u => rfl)
  | shiftLeft => exact check_or_ran (shift_ran h rfl rfl fun u => rfl)
  | shiftRight => exact check_or_ran (shift_ran h rfl rfl fun u => rfl)
  | leftToRight => exact check_or_ran (setEntry_ran h rfl rfl fun u => rfl)
  | rightToLeft => exact check_or_ran (setEntry_ran h rfl rfl fun u => rfl)
  | backlightOn => exact check_or_ran (setBacklight_ran h rfl rfl fun u => rfl)
  | backlightOff => exact check_or_ran (setBacklight_ran h rfl rfl fun u => rfl)
  | writeCustomGlyph slot => cases h
  | entryDisplayShift =>
    cases h
    exact .inl ⟨.notSupported, by simp, rfl⟩
  | reserved w =>
    cases h
    exact .inl ⟨.invalidArgument, by simp, rfl⟩
  | hdClearDisplay => cases hq
  | hdReturnHome => cases hq
  | hdEntryModeSet i1 s1 => cases hq
  | hdDisplayControl d c b => cases hq
  | hdCursorDisplayShift m r => cases hq
  | hdFunctionSet l n f => cases hq
  | hdSetCgramAddress a => cases hq
  | hdSetDdramAddress a => cases hq
  | hdWriteData c => cases hq
  | hdFunctionSet8BitNibble => cases hq
  | hdFunctionSet4BitNibble => cases hq

/-! ### Protocol-engine calls -/

theorem runTransfer_next {plan : List Prim} {s t : State} (h : runTransfer plan s = .next t) :
    ∃ r n es, runPlan plan s = (r, s.afterBus n es) ∧ t = (s.afterBus n es).giveBack r := by
  obtain ⟨n, es, hp⟩ := runPlan_frame plan s
  rw [runTransfer_eq] at h
  cases h
  exact ⟨_, n, es, by rw [← hp], by rw [hp]⟩

/-- The bus traffic of a protocol-engine call. -/
def transferPlan : Instr → State → List Prim
  | .hdClearDisplay, s => cmd s.backlightOn baseClear
  | .hdReturnHome, s => cmd s.backlightOn baseHome
  | .hdEntryModeSet i sh, s => cmd s.backlightOn (baseEntryMode ||| bitIf i bitID ||| bitIf sh bitS)
  | .hdDisplayControl d c b, s =>
      cmd s.backlightOn (baseDisplayControl ||| bitIf d bitD ||| bitIf c bitC ||| bitIf b bitB)
  | .hdCursorDisplayShift m r, s => cmd s.backlightOn (baseShift ||| bitIf m bitSC ||| bitIf r bitRL)
  | .hdFunctionSet l n f, s =>
      cmd s.backlightOn (baseFunctionSet ||| bitIf l bitDL ||| bitIf n bitN ||| bitIf f bitF)
  | .hdSetCgramAddress a, s => cmd s.backlightOn (baseSetCgram ||| a.setWidth 8)
  | .hdSetDdramAddress a, s => cmd s.backlightOn (baseSetDdram ||| a.setWidth 8)
  | .hdWriteData c, s => data s.backlightOn c
  | .hdFunctionSet8BitNibble, s => writeNibble s.backlightOn 0x30 .cmd
  | .hdFunctionSet4BitNibble, s => writeNibble s.backlightOn 0x20 .cmd
  | _, _ => []

theorem exec_transfer_eq {i : Instr} (hq : i.isTransfer = true) (s : State) :
    exec i s = runTransfer (transferPlan i s) s := by
  cases i <;> first
    | rfl
    | cases hq

/-- Every protocol-engine call changes the trace, the environment's draws and what it gave back, and nothing else. -/
theorem exec_transfer_next {i : Instr} {s t : State} (hq : i.isTransfer = true) (h : exec i s = .next t) :
    ∃ r n es, runPlan (transferPlan i s) s = (r, s.afterBus n es) ∧ t = (s.afterBus n es).giveBack r :=
  runTransfer_next (by rwa [exec_transfer_eq hq] at h)

/-- A byte that the table does not list does what a protocol-engine call does, and nothing else. -/
theorem execUnlisted_next {why : DecodeError} {s t : State} (h : execUnlisted why s = .next t) :
    ∃ r n es, t = (s.afterBus n es).giveBack r := by
  cases why <;>
    · simp only [execUnlisted] at h
      obtain ⟨r, n, es, -, ht⟩ := runTransfer_next h
      exact ⟨r, n, es, ht⟩

end Sys2Proof.Machine
end

