-- ==== Sys2Proof/Laws/Cursor.lean ====
section
/-! SUPPORT. The cursor functions and the geometry: what the bounds of R21 say, which direction a cursor step takes, and
that the two row tables undo each other. -/

namespace Sys2Proof.Machine

/-- R21 as bounds on the columns. -/
theorem configWf_bounds {c : Config} (h : configWf c = true) :
    (c.rows = 1 ∨ c.rows = 2 ∨ c.rows = 4) ∧ 1 ≤ c.columns ∧ c.columns ≤ 128 ∧ (c.rows = 2 → c.columns ≤ 64) ∧
      (c.rows = 4 → c.columns ≤ 44) := by
  simp [configWf] at h
  obtain ⟨⟨h | h, h2⟩, h3⟩ := h
  · rcases h with h | h <;>
      · simp [h, rowOffset] at *
        omega
  · simp [h, rowOffset] at *
    omega

theorem and_bitID_ne_zero : ∀ m : Byte, (m &&& bitID ≠ 0) ↔ m.getLsbD 1 = true := by decide +kernel

/-- The cursor step is chosen by bit 1 of the entry mode. -/
theorem cursorStep_eq (c : Config) (m : Byte) (p : Position) :
    cursorStep c m p = if m.getLsbD 1 then advance c p else retreat c p := by
  simp only [cursorStep, and_bitID_ne_zero]

/-- PREV_ROW undoes NEXT_ROW on the rows of a display. -/
theorem prevRow_nextRow {n r : Nat} (h : n = 2 ∧ r < 2 ∨ n = 4 ∧ r < 4) :
    ∃ q, nextRow n r = some q ∧ prevRow n q = some r := by
  rcases h with ⟨rfl, h⟩ | ⟨rfl, h⟩
  · have : r = 0 ∨ r = 1 := by omega
    rcases this with rfl | rfl <;> exact ⟨_, rfl, rfl⟩
  · have : r = 0 ∨ r = 1 ∨ r = 2 ∨ r = 3 := by omega
    rcases this with rfl | rfl | rfl | rfl <;> exact ⟨_, rfl, rfl⟩

/-- NEXT_ROW undoes PREV_ROW on the rows of a display. -/
theorem nextRow_prevRow {n r : Nat} (h : n = 2 ∧ r < 2 ∨ n = 4 ∧ r < 4) :
    ∃ q, prevRow n r = some q ∧ nextRow n q = some r := by
  rcases h with ⟨rfl, h⟩ | ⟨rfl, h⟩
  · have : r = 0 ∨ r = 1 := by omega
    rcases this with rfl | rfl <;> exact ⟨_, rfl, rfl⟩
  · have : r = 0 ∨ r = 1 ∨ r = 2 ∨ r = 3 := by omega
    rcases this with rfl | rfl | rfl | rfl <;> exact ⟨_, rfl, rfl⟩

/-- The end of WRITE_CHAR and of the shifts, when every field holds a value and no row table is missed. -/
theorem stepCursorAndEnd_of_step {s : State} {m : Byte} {x : BitVec 7} {y : BitVec 2} {p : Position}
    (hm : s.mode = some m) (hx : s.col = some x) (hy : s.row = some y)
    (hp : cursorStep s.config m ⟨x.toNat, y.toNat⟩ = some p) :
    stepCursorAndEnd s = .next ((s.putCursor p).deliver .ok) := by
  simp [stepCursorAndEnd, hm, hx, hy, hp]

end Sys2Proof.Machine
end

