-- ==== Sys2Proof/Laws/PerInstr.lean ====
section
/-! SUPPORT. Facts stated per instruction: `EncodedForm`, that the encoder gives a request word exactly for a request and
a protocol-engine call exactly for an HD44780 row (R80, R92, R96). -/

namespace Sys2Proof.Laws.EncodedForm

/-- An instruction and its encoding are of one kind. -/
def Statement (i : Instr) : Prop := (encode i).isTransfer = i.isTransfer

theorem init (e : Bool) : Statement (.init e) := rfl
theorem probe : Statement .probe := rfl
theorem writeChar (c : Byte) : Statement (.writeChar c) := rfl
theorem home : Statement .home := rfl
theorem setCursor (col : BitVec 7) (row : BitVec 2) : Statement (.setCursor col row) := rfl
theorem clear : Statement .clear := rfl
theorem displayOn : Statement .displayOn := rfl
theorem displayOff : Statement .displayOff := rfl
theorem cursorOn : Statement .cursorOn := rfl
theorem cursorOff : Statement .cursorOff := rfl
theorem blinkOn : Statement .blinkOn := rfl
theorem blinkOff : Statement .blinkOff := rfl
theorem shiftLeft : Statement .shiftLeft := rfl
theorem shiftRight : Statement .shiftRight := rfl
theorem leftToRight : Statement .leftToRight := rfl
theorem rightToLeft : Statement .rightToLeft := rfl
theorem backlightOn : Statement .backlightOn := rfl
theorem backlightOff : Statement .backlightOff := rfl
theorem writeCustomGlyph (slot : BitVec 3) : Statement (.writeCustomGlyph slot) := rfl
theorem entryDisplayShift : Statement .entryDisplayShift := rfl
theorem reserved (w : ReqWord) : Statement (.reserved w) := rfl
theorem hdClearDisplay : Statement .hdClearDisplay := rfl
theorem hdReturnHome : Statement .hdReturnHome := rfl
theorem hdEntryModeSet (i s : Bool) : Statement (.hdEntryModeSet i s) := rfl
theorem hdDisplayControl (d c b : Bool) : Statement (.hdDisplayControl d c b) := rfl
theorem hdCursorDisplayShift (m r : Bool) : Statement (.hdCursorDisplayShift m r) := rfl
theorem hdFunctionSet (l n f : Bool) : Statement (.hdFunctionSet l n f) := rfl
theorem hdSetCgramAddress (a : BitVec 6) : Statement (.hdSetCgramAddress a) := rfl
theorem hdSetDdramAddress (a : BitVec 7) : Statement (.hdSetDdramAddress a) := rfl
theorem hdWriteData (c : Byte) : Statement (.hdWriteData c) := rfl
theorem hdFunctionSet8BitNibble : Statement .hdFunctionSet8BitNibble := rfl
theorem hdFunctionSet4BitNibble : Statement .hdFunctionSet4BitNibble := rfl

end Sys2Proof.Laws.EncodedForm
end

