-- ==== Sys2Proof/Laws/Sound.lean ====
section
/-! SUPPORT. What a request's start and commit leave alone, and that each named update keeps `StateSound`. -/

namespace Sys2Proof.Machine

/-! ### Frames -/

/-- A request's starting state differs from the state at most in the backlight flag. -/
theorem requestStart_frame (i : Instr) (s : State) :
    (requestStart i s).config = s.config ∧ (requestStart i s).inbox = s.inbox ∧
      (requestStart i s).trace = s.trace ∧ (requestStart i s).responses = s.responses ∧
      (requestStart i s).returns = s.returns ∧ (requestStart i s).initialized = s.initialized ∧
      (requestStart i s).function = s.function ∧ (requestStart i s).control = s.control ∧
      (requestStart i s).mode = s.mode ∧ (requestStart i s).col = s.col ∧ (requestStart i s).row = s.row := by
  cases i <;> simp [requestStart]

/-- A commit leaves the configuration, the channels and the backlight alone. -/
theorem requestCommit_frame {i : Instr} {u v : State} (h : requestCommit i u = some v) :
    v.config = u.config ∧ v.inbox = u.inbox ∧ v.trace = u.trace ∧ v.responses = u.responses ∧
      v.returns = u.returns ∧ v.backlightOn = u.backlightOn := by
  cases i <;> simp [requestCommit, initCommit, cursorCommit] at h <;> first
    | (obtain ⟨p, -, rfl⟩ := h; simp; done)
    | (subst h; simp)

/-! ### The invariant -/

/-- The invariant reads only these fields. -/
theorem StateSound.congr {s t : State} (hs : StateSound s) (h1 : t.config = s.config)
    (h2 : t.initialized = s.initialized) (h3 : t.function = s.function) (h4 : t.control = s.control)
    (h5 : t.mode = s.mode) (h6 : t.col = s.col) (h7 : t.row = s.row) : StateSound t := by
  constructor
  · rw [h1]; exact hs.config
  · rw [h3, h2, h1]; exact hs.function
  · rw [h4, h2]; exact hs.control
  · rw [h5, h2]; exact hs.mode
  · rw [h6, h2]; exact hs.col
  · rw [h7, h2]; exact hs.row
  · rw [h4]; exact hs.controlLegal
  · rw [h5]; exact hs.modeLegal
  · rw [h6, h1]; exact hs.colLegal
  · rw [h7, h1]; exact hs.rowLegal

theorem StateSound.afterBus {s : State} (hs : StateSound s) (n : Nat) (es : List Event) :
    StateSound (s.afterBus n es) :=
  hs.congr rfl rfl rfl rfl rfl rfl rfl

theorem StateSound.deliver {s : State} (hs : StateSound s) (r : ResultCode) : StateSound (s.deliver r) :=
  hs.congr rfl rfl rfl rfl rfl rfl rfl

theorem StateSound.giveBack {s : State} (hs : StateSound s) (r : ResultCode) : StateSound (s.giveBack r) :=
  hs.congr rfl rfl rfl rfl rfl rfl rfl

theorem StateSound.putInbox {s : State} (hs : StateSound s) (rest : List Command) : StateSound (s.putInbox rest) :=
  hs.congr rfl rfl rfl rfl rfl rfl rfl

theorem StateSound.putBacklight {s : State} (hs : StateSound s) (v : Bool) : StateSound (s.putBacklight v) :=
  hs.congr rfl rfl rfl rfl rfl rfl rfl

theorem StateSound.requestStart {s : State} (hs : StateSound s) (i : Instr) : StateSound (requestStart i s) := by
  obtain ⟨h1, -, -, -, -, h2, h3, h4, h5, h6, h7⟩ := requestStart_frame i s
  exact hs.congr h1 h2 h3 h4 h5 h6 h7

theorem StateSound.putCursor {s : State} {p : Position} (hs : StateSound s) (hi : s.initialized = true)
    (hp : p.valid s.config = true) : StateSound (s.putCursor p) := by
  obtain ⟨hr, h1, h2, h3, h4⟩ := configWf_bounds hs.config
  simp [Position.valid] at hp
  have := hs.function
  have := hs.control
  have := hs.mode
  constructor <;> simp_all
  · exact hs.config
  · exact hs.controlLegal
  · exact hs.modeLegal
  · omega
  · omega

theorem StateSound.putControl {s : State} {v : Byte} (hs : StateSound s) (hi : s.initialized = true)
    (hv : v &&& 0xF8 = 0) : StateSound (s.putControl v) := by
  have := hs.function
  have := hs.mode
  have := hs.col
  have := hs.row
  constructor <;> simp_all
  · exact hs.config
  · exact hs.modeLegal
  · exact hs.colLegal
  · exact hs.rowLegal

theorem StateSound.putMode {s : State} {v : Byte} (hs : StateSound s) (hi : s.initialized = true)
    (hv : v = 0x00 ∨ v = 0x02) : StateSound (s.putMode v) := by
  have := hs.function
  have := hs.control
  have := hs.col
  have := hs.row
  constructor <;> simp_all
  · exact hs.config
  · exact hs.controlLegal
  · exact hs.colLegal
  · exact hs.rowLegal

end Sys2Proof.Machine
end

