-- ==== Sys2Proof/Laws/Trace.lean ====
section
/-! SUPPORT. What the events of one nibble transfer and of one byte say to the units behind the port: how long they last,
what the controller latches from them, and how they move it. -/

namespace Sys2Proof.Machine

theorem minDuration_append (a b : List Event) : minDuration (a ++ b) = minDuration a + minDuration b := by
  induction a with
  | nil => simp [minDuration]
  | cons e es ih => cases e <;> simp [minDuration, ih, Nat.add_assoc]

theorem minDuration_nib (s : State) (bl : Bool) (x : Byte) : minDuration (s.nib bl x) = 1001 := by
  simp [State.nib, minDuration, State.w, State.wr]

/-- EN is 0 in the base byte. -/
theorem payloadBase_enable (n : Byte) (bl : Bool) (m : Mode) : (payloadBase bl n m).getLsbD 2 = false := by
  revert n; cases bl <;> cases m <;> decide +kernel

/-- The data lines and RS of the base byte. -/
theorem payloadBase_lines (n : Byte) (bl : Bool) (m : Mode) :
    (payloadBase bl n m).extractLsb' 4 4 = n.extractLsb' 4 4 ∧
      (payloadBase bl n m).getLsbD 0 = decide (m = .data) := by
  revert n; cases bl <;> cases m <;> decide +kernel

theorem or_enable_enable : ∀ b : Byte, (b ||| 0x04).getLsbD 2 = true := by decide +kernel

/-- One acknowledged nibble transfer latches exactly one nibble, with its RS, and leaves the base byte on the lines. -/
theorem latched_nib_append (before : Byte) (s : State) (x n : Byte) (bl : Bool) (m : Mode) (es : List Event)
    (hb : before.getLsbD 2 = false) (hx : x = (n &&& 0xF0) ||| m.rs) :
    latched before (s.nib bl x ++ es) =
      (latched (payloadBase bl n m) es).map fun ls => ⟨n.extractLsb' 4 4, decide (m = .data)⟩ :: ls := by
  subst hx
  have h1 : ((n &&& 0xF0) ||| Mode.rs m) ||| (if bl then 0x08 else 0x00) = payloadBase bl n m := by cases bl <;> rfl
  simp only [State.nib, h1]
  simp only [List.cons_append, List.nil_append, State.w, State.wr, latched, latchAt, hb, payloadBase_enable,
    or_enable_enable, payloadBase_lines]
  simp
  cases latched (payloadBase bl n m) es <;> rfl

/-! ### The controller -/

theorem wireAfter_append (a b : List Event) : wireAfter (a ++ b) = b.foldl Wire.after (wireAfter a) :=
  List.foldl_append

@[simp] theorem Wire.latch_en (l : Latch) (w : Wire) : (w.latch l).en = w.en := by
  unfold Wire.latch; split <;> rfl

@[simp] theorem Wire.latch_inStep (l : Latch) (w : Wire) : (w.latch l).inStep = w.inStep := by
  unfold Wire.latch; split <;> rfl

@[simp] theorem Wire.after_wr_ack (w : Wire) (s : State) (b : Byte) : w.after (s.wr b .ack) = w.acked b := rfl

/-- A write that is not acknowledged leaves nothing known. -/
theorem Wire.after_wr_failed (w : Wire) (s : State) (b : Byte) {r : BusResponse} (hr : r ≠ .ack) :
    w.after (s.wr b r) = w.failed b := by
  cases r <;> first
    | rfl
    | exact absurd rfl hr

@[simp] theorem Wire.failed_inStep (w : Wire) (b : Byte) : (w.failed b).inStep = false := by
  unfold Wire.failed; split <;> rfl

theorem Wire.after_delay (w : Wire) {t : Nat} (ht : t ≠ tReset4) : w.after (.delay t) = w := if_neg ht

theorem Wire.acked_high (w : Wire) {b : Byte} (hb : b.getLsbD 2 = true) : w.acked b = { w with en := some true } :=
  if_pos hb

theorem Wire.acked_low_en (w : Wire) {b : Byte} (hb : b.getLsbD 2 = false) : (w.acked b).en = some false := by
  unfold Wire.acked
  rw [hb]
  simp only [Bool.false_eq_true, if_false]
  split <;> simp [*]

theorem Wire.acked_low_of_low {w : Wire} {b : Byte} (hb : b.getLsbD 2 = false) (hw : w.en = some false) :
    w.acked b = w := by
  simp only [Wire.acked, hb, hw, Bool.false_eq_true, if_false]

theorem Wire.acked_low_of_high {w : Wire} {b : Byte} (hb : b.getLsbD 2 = false) (hw : w.en = some true) :
    w.acked b = { w with en := some false }.latch ⟨b.extractLsb' 4 4, b.getLsbD 0⟩ := by
  simp only [Wire.acked, hb, hw, Bool.false_eq_true, if_false]

/-- What one acknowledged nibble transfer does to the controller, event by event. -/
theorem Wire.foldl_nib_eq (s : State) (x n : Byte) (bl : Bool) (m : Mode) (w : Wire) (hx : x = (n &&& 0xF0) ||| m.rs) :
    (s.nib bl x).foldl Wire.after w =
      Wire.latch ⟨n.extractLsb' 4 4, decide (m = Mode.data)⟩
        { w.acked (payloadBase bl n m) with en := some false } := by
  subst hx
  have h1 : ((n &&& 0xF0) ||| Mode.rs m) ||| (if bl then 0x08 else 0x00) = payloadBase bl n m := by cases bl <;> rfl
  simp only [State.nib, h1, List.foldl_cons, List.foldl_nil, State.w, Wire.after_wr_ack]
  rw [Wire.after_delay _ (by decide), Wire.after_delay _ (by decide), Wire.acked_high _ (or_enable_enable _),
    Wire.acked_low_of_high (payloadBase_enable n bl m) rfl, (payloadBase_lines n bl m).1, (payloadBase_lines n bl m).2]

/-- From EN low, one acknowledged nibble transfer is one latch. -/
theorem Wire.foldl_nib (s : State) (x n : Byte) (bl : Bool) (m : Mode) (w : Wire) (hw : w.en = some false)
    (hx : x = (n &&& 0xF0) ||| m.rs) :
    (s.nib bl x).foldl Wire.after w = w.latch ⟨n.extractLsb' 4 4, decide (m = Mode.data)⟩ := by
  rw [Wire.foldl_nib_eq s x n bl m w hx, Wire.acked_low_of_low (payloadBase_enable n bl m) hw, ← hw]

/-- One acknowledged nibble transfer leaves EN low, whatever it was. -/
theorem Wire.foldl_nib_en (s : State) (x n : Byte) (bl : Bool) (m : Mode) (w : Wire)
    (hx : x = (n &&& 0xF0) ||| m.rs) : ((s.nib bl x).foldl Wire.after w).en = some false := by
  rw [Wire.foldl_nib_eq s x n bl m w hx, Wire.latch_en]

/-- The high and the low nibble source of a byte (R94). -/
theorem shl_high_nibble : ∀ v : Byte, (v <<< 4).extractLsb' 4 4 = v.extractLsb' 0 4 := by decide +kernel

/-- From EN low, an acknowledged command byte is two latches, high nibble first. -/
theorem Wire.foldl_cmdEvents (s : State) (bl : Bool) (v : Byte) {t : Nat} (w : Wire) (hw : w.en = some false)
    (ht : t ≠ tReset4) : (s.cmdEvents bl v t).foldl Wire.after w =
      (w.latch ⟨v.extractLsb' 4 4, false⟩).latch ⟨v.extractLsb' 0 4, false⟩ := by
  rw [State.cmdEvents, List.foldl_append, List.foldl_append,
    Wire.foldl_nib s _ v bl .cmd w hw (by simp [Mode.rs]),
    Wire.foldl_nib s _ (v <<< 4) bl .cmd _ (by simp [hw]) (by simp [Mode.rs]), shl_high_nibble]
  exact Wire.after_delay _ ht

/-- From EN low, an acknowledged data byte is two latches, high nibble first. -/
theorem Wire.foldl_dataEvents (s : State) (bl : Bool) (c : Byte) (w : Wire) (hw : w.en = some false) :
    (s.dataEvents bl c).foldl Wire.after w =
      (w.latch ⟨c.extractLsb' 4 4, true⟩).latch ⟨c.extractLsb' 0 4, true⟩ := by
  rw [State.dataEvents, List.foldl_append, List.foldl_append, Wire.foldl_nib s ((c &&& 0xF0) ||| 0x01) c bl .data w hw rfl,
    Wire.foldl_nib s (((c <<< 4) &&& 0xF0) ||| 0x01) (c <<< 4) bl .data _ (by simp [hw]) rfl, shl_high_nibble]
  exact Wire.after_delay (t := 50) _ (by decide)

end Sys2Proof.Machine
end

