-- ==== Sys2Proof/Tests/Slice0.lean ====
section
/-! SUPPORT. The model's own tests. Expected values are the vectors of spec/95_test_vectors.md (named in each docstring)
or words written out from the encodings of R82, R92 and R96. Then one witness for each obligation that has hypotheses:
concrete states and operands that meet all of them together. -/

namespace Sys2Proof.Tests

open Sys2Proof.Machine

/-! ### States -/

/-- The 20×4 encoder after INIT, every bus response ACK for a while. -/
def ready : State :=
  { State.construct resetConfig with
    initialized := true
    function := some 0x08
    control := some 0x04
    mode := some 0x02
    col := some 0
    row := some 0
    busScript := List.replicate 48 .ack }

/-- The 20×4 encoder just constructed, every bus response ACK for a while. -/
def fresh : State := { State.reset with busScript := List.replicate 48 .ack }

/-- `ready` with the cursor at `(x, y)` and the entry mode `m`. -/
def readyAt (x : BitVec 7) (y : BitVec 2) (m : Byte) : State :=
  { ready with col := some x, row := some y, mode := some m }

/-- `s` with these bus responses next. -/
def answering (rs : List BusResponse) (s : State) : State := { s with busScript := rs }

/-- The next state satisfies `p`. -/
def nextIs (a : Answer) (p : State → Bool) : Bool :=
  match a with
  | .next t => p t
  | .fault _ => false
  | .refused _ => false

/-- The state an answer goes to. -/
def nextOf (a : Answer) (d : State) : State :=
  match a with
  | .next t => t
  | .fault _ => d
  | .refused _ => d

/-- The payload bytes written, in order. -/
def payload (s : State) : List Byte :=
  s.trace.filterMap fun e =>
    match e with
    | .write _ _ b _ => some b
    | .probe _ _ _ => none
    | .delay _ => none

/-- The last request's result code. -/
def result (s : State) : Option ResultCode := s.responses.getLast?

theorem ready_sound : StateSound ready := by
  constructor <;> first
    | decide
    | (intro v h; cases h; decide)

theorem readyAt_sound : StateSound (readyAt 19 0 0x02) := by
  constructor <;> first
    | decide
    | (intro v h; cases h; decide)

theorem fresh_sound : StateSound fresh := by
  constructor <;> decide

theorem ready_acks : AcksAhead ready 48 := by decide
theorem fresh_acks : AcksAhead fresh 48 := by decide
theorem readyAt_acks : AcksAhead (readyAt 19 0 0x02) 48 := by decide

/-- A controller in step that has taken nothing yet. -/
def inStepWire : Wire where
  en := some false
  phase := .whole
  bytes := []
  inStep := true

/-! ### Decoding -/

/-- The request words of spec/95 section 2.3, each constructor once, and the reserved bits of every format. -/
theorem test_decode_requests :
    decodeTableWord 16 0x0000 = some (.init false) ∧ decodeTableWord 16 0x0001 = some (.init true) ∧
    decodeTableWord 16 0x0800 = some .probe ∧ decodeTableWord 16 0x1041 = some (.writeChar 0x41) ∧
    decodeTableWord 16 0x1800 = some .home ∧ decodeTableWord 16 0x2103 = some (.setCursor 3 2) ∧
    decodeTableWord 16 0x21FF = some (.setCursor 127 3) ∧ decodeTableWord 16 0x2800 = some .clear ∧
    decodeTableWord 16 0x3000 = some .displayOn ∧ decodeTableWord 16 0x3800 = some .displayOff ∧
    decodeTableWord 16 0x4000 = some .cursorOn ∧ decodeTableWord 16 0x4800 = some .cursorOff ∧
    decodeTableWord 16 0x5000 = some .blinkOn ∧ decodeTableWord 16 0x5800 = some .blinkOff := by
  decide

theorem test_decode_more_requests :
    decodeTableWord 16 0x6000 = some .shiftLeft ∧ decodeTableWord 16 0x6800 = some .shiftRight ∧
    decodeTableWord 16 0x7000 = some .leftToRight ∧ decodeTableWord 16 0x7800 = some .rightToLeft ∧
    decodeTableWord 16 0x8000 = some .backlightOn ∧ decodeTableWord 16 0x8800 = some .backlightOff ∧
    decodeTableWord 16 0x9000 = some (.writeCustomGlyph 0) ∧ decodeTableWord 16 0x9007 = some (.writeCustomGlyph 7) ∧
    decodeTableWord 16 0x9800 = some .entryDisplayShift := by
  decide

theorem test_decode_reserved :
    ∀ w ∈ ([0x0002, 0x0801, 0x1141, 0x2200, 0x9008, 0xA000, 0xFFFF] : List Nat),
      decodeTableWord 16 w = some (.reserved (BitVec.ofNat 16 w)) := by
  decide

/-- Bytes written out from R92: the base values, and each argument bit where it stands. -/
theorem test_decode_instruction_bytes :
    decode (.transfer .command 0b00000001) = .ok .hdClearDisplay ∧
    decode (.transfer .command 0b00000011) = .ok .hdReturnHome ∧
    decode (.transfer .command 0b00000110) = .ok (.hdEntryModeSet true false) ∧
    decode (.transfer .command 0b00001100) = .ok (.hdDisplayControl true false false) ∧
    decode (.transfer .command 0b00011000) = .ok (.hdCursorDisplayShift true false) ∧
    decode (.transfer .command 0b00101000) = .ok (.hdFunctionSet false true false) ∧
    decode (.transfer .command 0b01000101) = .ok (.hdSetCgramAddress 5) ∧
    decode (.transfer .command 0b11000000) = .ok (.hdSetDdramAddress 0x40) ∧
    decode (.transfer .data 0b01000001) = .ok (.hdWriteData 0x41) ∧
    decode (.transfer .nibble 0b00110000) = .ok .hdFunctionSet8BitNibble ∧
    decode (.transfer .nibble 0b00100000) = .ok .hdFunctionSet4BitNibble ∧
    decode (.transfer .command 0) = .error .noCommandByte ∧
    decode (.transfer .nibble 0x40) = .error (.noLoneNibble 0x40) := by
  decide

/-! ### Well-formedness -/

/-- The check refuses a `reserved` that holds an assigned word. -/
theorem test_wf_refuses_assigned_word :
    (Instr.reserved 0x0800).wf = false ∧ (Instr.reserved 0x1041).wf = false ∧ (Instr.reserved 0xA000).wf = true := by
  decide

/-- Configurations at and past the bounds of R21. -/
theorem test_configuration_bounds :
    (∀ g ∈ ([(1, 1), (128, 1), (64, 2), (44, 4), (20, 4)] : List (Nat × Nat)),
      configWf { resetConfig with columns := g.1, rows := g.2 } = true) ∧
    ∀ g ∈ ([(0, 1), (129, 1), (65, 2), (45, 4), (20, 3), (20, 0)] : List (Nat × Nat)),
      configWf { resetConfig with columns := g.1, rows := g.2 } = false := by
  decide

/-! ### The protocol engine -/

/-- M-9: `writeByte(0xA5, DATA)`, backlight on. -/
theorem test_writeByte_split : payload (runPlan (writeByte true 0xA5 .data) ready).2 =
    [0xA9, 0xAD, 0xA9, 0x59, 0x5D, 0x59] := by
  decide

/-- M-7: `writeNibble(0x30, CMD)`, the second write times out. -/
theorem test_writeNibble_second_write_times_out :
    (runPlan (writeNibble true 0x30 .cmd) (answering [.ack, .timeout] ready)).1 = .timeout ∧
    payload (runPlan (writeNibble true 0x30 .cmd) (answering [.ack, .timeout] ready)).2 = [0x38, 0x3C] := by
  decide

/-! ### One step of each request -/

/-- V-INIT-1, the fields. -/
theorem test_init_commits : nextIs (step (fresh.withFetchWord 16 0x0000)) (fun t =>
    result t = some .ok && t.initialized && t.function = some 0x08 && t.control = some 0x04 && t.mode = some 0x02 &&
      t.col = some 0 && t.row = some 0 && minDuration t.trace = 21444) = true := by
  decide +kernel

/-- V-INIT-7: the first write is NACKed. -/
theorem test_init_fails : nextIs (step ((answering [.nack] fresh).withFetchWord 16 0x0000)) (fun t =>
    result t = some .transportError && !t.initialized && t.mode = none && payload t = [0x38]) = true := by
  decide

/-- V-PROBE-2. -/
theorem test_probe_nack : nextIs (step ((answering [.nack] ready).withFetchWord 16 0x0800)) (fun t =>
    result t = some .notFound && t.trace = [.probe 0 0x3F .nack]) = true := by
  decide

/-- V-WC-1: the row-pair wrap. -/
theorem test_writeChar_row_pair_wrap : nextIs (step ((readyAt 19 0 0x02).withFetchWord 16 0x1041)) (fun t =>
    t.col = some 0 && t.row = some 2 && payload t = [0x49, 0x4D, 0x49, 0x19, 0x1D, 0x19]) = true := by
  decide

/-- V-WC-6: decrement from the origin. -/
theorem test_writeChar_decrement : nextIs (step ((readyAt 0 0 0x00).withFetchWord 16 0x1041)) (fun t =>
    t.col = some 19 && t.row = some 3) = true := by
  decide

/-- V-HOME-1. -/
theorem test_home : nextIs (step ((readyAt 7 3 0x02).withFetchWord 16 0x1800)) (fun t =>
    t.col = some 0 && t.row = some 0 && t.trace.getLast? = some (.delay 1520)) = true := by
  decide

/-- V-CLR-1. -/
theorem test_clear_sets_increment : nextIs (step ((readyAt 5 1 0x00).withFetchWord 16 0x2800)) (fun t =>
    t.col = some 0 && t.row = some 0 && t.mode = some 0x02) = true := by
  decide

/-- V-SC-2: address 0x67, byte 0xE7. -/
theorem test_setCursor_last_position : nextIs (step (ready.withFetchWord 16 0x2193)) (fun t =>
    t.col = some 19 && t.row = some 3 && payload t = [0xE8, 0xEC, 0xE8, 0x78, 0x7C, 0x78]) = true := by
  decide

/-- V-SC-4: column 20. -/
theorem test_setCursor_out_of_range : nextIs (step (ready.withFetchWord 16 0x2014)) (fun t =>
    result t = some .invalidArgument && t.trace = []) = true := by
  decide

/-- V-CTL-1 to V-CTL-6. -/
theorem test_control_requests :
    ∀ row ∈ ([(0x3000, 0x00, 0x04), (0x3800, 0x07, 0x03), (0x4000, 0x04, 0x06), (0x4800, 0x06, 0x04),
        (0x5000, 0x04, 0x05), (0x5800, 0x05, 0x04)] : List (Nat × Byte × Byte)),
      nextIs (step (({ ready with control := some row.2.1 } : State).withFetchWord 16 row.1)) (fun t =>
        t.control = some row.2.2) = true := by
  decide

/-- V-CTL-8: the sixth write is NACKed. -/
theorem test_control_kept_on_failure :
    nextIs (step ((answering [.ack, .ack, .ack, .ack, .ack, .nack] ready).withFetchWord 16 0x4000)) (fun t =>
      result t = some .transportError && t.control = some 0x04) = true := by
  decide

/-- V-SH-1 and V-SH-2. -/
theorem test_shifts_follow_the_entry_mode :
    nextIs (step ((readyAt 4 1 0x02).withFetchWord 16 0x6000)) (fun t => t.col = some 5 && t.row = some 1) = true ∧
    nextIs (step ((readyAt 4 1 0x00).withFetchWord 16 0x6800)) (fun t => t.col = some 3 && t.row = some 1) = true := by
  decide

/-- V-EN-1 and V-EN-2. -/
theorem test_entry_direction :
    nextIs (step ((readyAt 6 2 0x02).withFetchWord 16 0x7800)) (fun t => t.mode = some 0x00) = true ∧
    nextIs (step ((readyAt 6 2 0x00).withFetchWord 16 0x7000)) (fun t => t.mode = some 0x02) = true := by
  decide

/-- V-BL-3: 0x97 with the backlight bit clear. -/
theorem test_backlight_off : nextIs (step ((readyAt 3 2 0x02).withFetchWord 16 0x8800)) (fun t =>
    !t.backlightOn && payload t = [0x90, 0x94, 0x90, 0x70, 0x74, 0x70]) = true := by
  decide

/-- V-BL-4: the new value stays. -/
theorem test_backlight_kept_on_failure :
    nextIs (step ((answering [.nack] ready).withFetchWord 16 0x8800)) (fun t =>
      result t = some .transportError && !t.backlightOn) = true := by
  decide

/-- V-BL-1. -/
theorem test_backlight_on :
    nextIs (step (({ ready with backlightOn := false } : State).withFetchWord 16 0x8000)) (fun t =>
      t.backlightOn && payload t = [0x88, 0x8C, 0x88, 0x08, 0x0C, 0x08]) = true := by
  decide

/-- V-NT-2, V-NT-4, V-NT-7. -/
theorem test_no_transmission :
    nextIs (step (fresh.withFetchWord 16 0x9800)) (fun t => result t = some .notSupported) = true ∧
    nextIs (step (fresh.withFetchWord 16 0xFFFF)) (fun t => result t = some .invalidArgument) = true ∧
    nextIs (step (ready.withFetchWord 16 0x9008)) (fun t => result t = some .invalidArgument) = true := by
  decide

/-- V-NT-6: refused, by name. -/
theorem test_glyph_refused :
    (match step (ready.withFetchWord 16 0x9003) with
      | .refused r => r = .customGlyph 3
      | .next _ => false
      | .fault _ => false) = true := by
  decide

/-- M-14 and M-16, as calls on their own. -/
theorem test_engine_calls :
    nextIs (exec .hdClearDisplay ready) (fun t => t.returns = [.ok] && t.responses = [] &&
      payload t = [0x08, 0x0C, 0x08, 0x18, 0x1C, 0x18] && t.trace.getLast? = some (.delay 1520)) = true ∧
    nextIs (exec (.hdWriteData 0x02) ready) (fun t =>
      payload t = [0x09, 0x0D, 0x09, 0x29, 0x2D, 0x29] && t.trace.getLast? = some (.delay 50)) = true := by
  decide

/-- A byte of each HD44780 row goes out as it stands, backlight on. -/
theorem test_engine_bytes :
    ∀ row ∈ ([(.hdReturnHome, [0x08, 0x0C, 0x08, 0x28, 0x2C, 0x28]),
        (.hdEntryModeSet true false, [0x08, 0x0C, 0x08, 0x68, 0x6C, 0x68]),
        (.hdDisplayControl true false false, [0x08, 0x0C, 0x08, 0xC8, 0xCC, 0xC8]),
        (.hdCursorDisplayShift true true, [0x18, 0x1C, 0x18, 0xC8, 0xCC, 0xC8]),
        (.hdFunctionSet false true false, [0x28, 0x2C, 0x28, 0x88, 0x8C, 0x88]),
        (.hdSetCgramAddress 5, [0x48, 0x4C, 0x48, 0x58, 0x5C, 0x58]),
        (.hdSetDdramAddress 0x67, [0xE8, 0xEC, 0xE8, 0x78, 0x7C, 0x78]),
        (.hdFunctionSet8BitNibble, [0x38, 0x3C, 0x38]),
        (.hdFunctionSet4BitNibble, [0x28, 0x2C, 0x28])] : List (Instr × List Byte)),
      nextIs (exec row.1 ready) (fun t => payload t = row.2) = true := by
  decide

/-- R118(c): the command byte 0x00 goes out like any other, with the settle time of R119. -/
theorem test_unlisted_command_byte : nextIs (step (ready.putInbox [.transfer .command 0])) (fun t =>
    t.returns = [.ok] && payload t = [0x08, 0x0C, 0x08, 0x08, 0x0C, 0x08] &&
      t.trace.getLast? = some (.delay 50)) = true := by
  decide

/-! ### What a trace says about the units behind the port -/

/-- V-WC-1 seen by the controller: the data byte 0x41, and the expander holds the last byte written. -/
theorem test_controller_view :
    latched 0 (ready.dataEvents true 0x41) = some [⟨0x4, true⟩, ⟨0x1, true⟩] ∧
    ((ready.dataEvents true 0x41).foldl Wire.after inStepWire).bytes = [(0x41, true)] ∧
    expanderLatch none (ready.dataEvents true 0x41) = some 0x19 ∧
    controllerInstr (0x0C, false) = .ok (.hdDisplayControl true false false) := by
  decide

/-- R270: 0x41 and 0x42 taken by a controller that already holds the half byte 0x8: off by one nibble. -/
theorem test_off_by_one :
    (ready.dataEvents true 0x41 ++ ready.dataEvents true 0x42).foldl Wire.after
        { inStepWire with phase := .half ⟨0x8, true⟩ } =
      { inStepWire with phase := .half ⟨0x2, true⟩, bytes := [(0x84, true), (0x14, true)] } := by
  decide

/-- P1: `WRITE_STRING "Hi"`; and R87's `SET_CURSOR 3, 2`. -/
theorem test_host_side :
    (assembleString [0x48, 0x69]).map encode = [.request 0x1048, .request 0x1069] ∧
    (assemble .setCursor [.number 3, .number 2]).map encode = some (.request 0x2103) ∧
    (assemble .writeChar [.ascii 'A']).map encode = some (.request 0x1041) ∧
    assemble .setCursor [.number 128, .number 0] = none ∧ assemble .home [.number 0] = none := by
  decide

/-! ### Witnesses: the hypotheses of each obligation are met together -/

theorem witness_DecodeOfEncodeIsTheInstruction :
    (Instr.setCursor 127 3).wf = true ∧ (Instr.reserved 0xFFFF).wf = true := by decide

theorem witness_Construction : State.construct? resetConfig = some State.reset := by decide

theorem witness_StepRunsTheDecodedCommand :
    (fresh.withFetchWord 16 0x0800).inbox = [.request 0x0800] ∧ decode (.request 0x0800) = .ok .probe := by decide

theorem witness_IdleEncoderWaits : State.reset.inbox = [] := by decide

/-- The lone nibbles next to the two that are listed, and 0x0F, whose high nibble is 0. -/
theorem witness_UnlistedBytesAreSentLikeAnyOther :
    (ready.putInbox [.transfer .command 0]).inbox = [.transfer .command 0] ∧
    AcksAhead (ready.putInbox [.transfer .command 0]) 6 ∧
    ∀ v ∈ ([0x0F, 0x1F, 0x40, 0xF0] : List Byte), v &&& 0xF0 ≠ 0x30 ∧ v &&& 0xF0 ≠ 0x20 ∧
      (ready.putInbox [.transfer .nibble v]).inbox = [.transfer .nibble v] ∧
      AcksAhead (ready.putInbox [.transfer .nibble v]) 3 := by decide

theorem witness_EveryStepKeepsTheInvariant : ∃ s t, StateSound s ∧ step s = .next t ∧ t ≠ s :=
  ⟨ready.putInbox [.request 0x9800], _, by
    constructor <;> first
      | decide
      | (intro v h; cases h; decide), rfl, by decide⟩

theorem witness_EveryInstructionButTheGlyphAnswers : StateSound ready ∧ StateSound fresh := ⟨ready_sound, fresh_sound⟩

theorem witness_BusResponsesGiveTheirResults :
    ∀ r ∈ ([.ack, .nack, .timeout, .busError] : List BusResponse), (answering [r] ready).responseAt 0 = r := by decide

theorem witness_transfers_acked : AcksAhead ready 6 ∧ AcksAhead ready 3 := by decide

/-- The second and third clauses of the corner cases, at 0x0F (nothing left of `n`) and 0x31 (EN = 0). -/
theorem witness_NibbleTransferCornerCases :
    (0x31 : Byte).getLsbD 2 = false ∧ (0x0F : Byte) &&& 0xF0 = 0 ∧
    ({ ready with backlightOn := false } : State).backlightOn = false ∧
    AcksAhead { ready with backlightOn := false } 3 := by decide

/-- Each way a nibble transfer can end: the first, the second, the third write fails, none fails. -/
theorem witness_NibbleTransferPulsesEnable :
    ∀ row ∈ ([([.nack], .transportError, [0x38]), ([.ack, .timeout], .timeout, [0x38, 0x3C]),
        ([.ack, .ack, .busError], .transportError, [0x38, 0x3C, 0x38]), ([.ack, .ack, .ack], .ok, [0x38, 0x3C, 0x38])] :
          List (List BusResponse × ResultCode × List Byte)),
      (runPlan (writeNibble true 0x30 .cmd) (answering row.1 ready)).1 = row.2.1 ∧
      payload (runPlan (writeNibble true 0x30 .cmd) (answering row.1 ready)).2 = row.2.2 := by decide

/-- A byte transfer that succeeds and one that fails (M-11). -/
theorem witness_byte_transfers :
    (runPlan (writeByte true 0x28 .cmd) ready).1 = .ok ∧
    (runPlan (writeByte true 0x28 .cmd) (answering [.ack, .nack] ready)).1 = .transportError ∧
    payload (runPlan (writeByte true 0x28 .cmd) (answering [.ack, .nack] ready)).2 = [0x28, 0x2C] := by decide

theorem witness_FailingTransactionIsTheLastEvent :
    (runPlan (writeNibble true 0x30 .cmd) ready).1 = .ok ∧
    (runPlan (writeNibble true 0x30 .cmd) (answering [.ack, .nack] ready)).1 = .transportError := by decide

theorem witness_Init :
    ready.initialized = true ∧ fresh.initialized = false ∧ AcksAhead fresh 42 ∧
    ((0x08 : Byte) = if fresh.config.rows = 2 ∨ fresh.config.rows = 4 then 0x08 else 0x00) := by decide

/-- The first, the twentieth (V-INIT-9) and the last write of INIT. -/
theorem witness_FailedInitCommitsNothing :
    fresh.initialized = false ∧ ∀ k ∈ ([0, 19, 41] : List Nat), k < 42 ∧
      (∀ j < k, (answering (List.replicate k .ack ++ [.timeout]) fresh).responseAt j = .ack) ∧
      (answering (List.replicate k .ack ++ [.timeout]) fresh).responseAt k = .timeout := by decide +kernel

theorem witness_ProbeAnswersWhetherTheDeviceIsThere :
    (answering [.nack] ready).initialized = true ∧ (answering [.nack] ready).responseAt 0 = .nack := by decide

theorem witness_WriteChar_and_shifts :
    ∃ (s : State) (c m : Byte) (x : BitVec 7) (y : BitVec 2), StateSound s ∧ s.initialized = true ∧ c ≠ 0 ∧
      AcksAhead s 6 ∧ s.mode = some m ∧ s.col = some x ∧ s.row = some y ∧ s.config.columns = x.toNat + 1 :=
  ⟨readyAt 19 0 0x02, 0x41, 0x02, 19, 0, readyAt_sound, rfl, by decide, by decide, rfl, rfl, rfl, rfl⟩

theorem witness_HomeClearControlEntryBacklight :
    ready.initialized = true ∧ ready.mode = some 0x02 ∧ ready.control = some 0x04 ∧ ready.col = some 0 ∧
    ready.row = some 0 ∧ AcksAhead ready 6 := by decide

theorem witness_SetCursor_inside :
    (19 : BitVec 7).toNat < ready.config.columns ∧ (3 : BitVec 2).toNat < ready.config.rows ∧
    ready.initialized = true ∧ AcksAhead ready 6 := by decide

theorem witness_SetCursor_outside :
    (ready.config.columns ≤ (20 : BitVec 7).toNat ∨ ready.config.rows ≤ (0 : BitVec 2).toNat) ∧
    ¬ ready.config.columns ≤ (19 : BitVec 7).toNat := by decide

theorem witness_SetCursor_before_init :
    (19 : BitVec 7).toNat < fresh.config.columns ∧ (3 : BitVec 2).toNat < fresh.config.rows ∧
    fresh.initialized = false := by decide

theorem witness_DdramAddressesFitSevenBits :
    configWf { resetConfig with columns := 44 } = true ∧ (43 : BitVec 7).toNat < 44 ∧ (3 : BitVec 2).toNat < 4 ∧
    ddramAddress 43 3 = 0x7F := by decide

/-- Each clause of the row tables at its boundary (spec/95 section 3.1). -/
theorem witness_RowTables :
    1 ≤ resetConfig.columns ∧ resetConfig.rows = 4 ∧ 18 + 1 < resetConfig.columns ∧
    ({ resetConfig with rows := 2 } : Config).rows = 2 ∧
    advance resetConfig ⟨18, 0⟩ = some ⟨19, 0⟩ ∧ advance resetConfig ⟨19, 2⟩ = some ⟨0, 1⟩ ∧
    retreat resetConfig ⟨0, 1⟩ = some ⟨19, 2⟩ ∧ retreat resetConfig ⟨1, 1⟩ = some ⟨0, 1⟩ := by decide

/-- Each clause of the 1-row rule at its boundary (V-WC-12 to V-WC-15). -/
theorem witness_OneRowDisplayPinsOrWraps :
    ∀ c ∈ ([{ resetConfig with columns := 16, rows := 1 }] : List Config), c.rows = 1 ∧
      14 + 1 < c.columns ∧ c.columns ≤ 15 + 1 ∧ c.oneRowOverflow = .pin ∧
      advance c ⟨15, 0⟩ = some ⟨15, 0⟩ ∧ retreat c ⟨0, 0⟩ = some ⟨0, 0⟩ ∧
      advance { c with oneRowOverflow := .wrap } ⟨15, 0⟩ = some ⟨0, 0⟩ ∧
      retreat { c with oneRowOverflow := .wrap } ⟨0, 0⟩ = some ⟨15, 0⟩ := by decide

theorem witness_CursorLaws :
    configWf resetConfig = true ∧ resetConfig.rows ≠ 1 ∧ Position.valid resetConfig ⟨19, 3⟩ = true ∧
    configWf { resetConfig with columns := 128, rows := 1, oneRowOverflow := .wrap } = true ∧
    Position.valid { resetConfig with columns := 128, rows := 1, oneRowOverflow := .wrap } ⟨127, 0⟩ = true := by decide

/-- A row-table miss needs a state that no run reaches: row 2 of a 2-row display. -/
theorem witness_RowTableMissCommitsNoCursor :
    ∃ (s : State) (m : Byte) (x : BitVec 7) (y : BitVec 2), s.initialized = true ∧ AcksAhead s 6 ∧ s.mode = some m ∧
      s.col = some x ∧ s.row = some y ∧ cursorStep s.config m ⟨x.toNat, y.toNat⟩ = none :=
  ⟨{ readyAt 19 2 0x02 with config := { resetConfig with rows := 2 } }, 0x02, 19, 2, rfl, by decide, rfl, rfl, rfl,
    by decide⟩

theorem witness_BacklightValueIsKeptOnFailure :
    ∃ s t x y, s.initialized = true ∧ s.col = some x ∧ s.row = some y ∧ exec .backlightOff s = .next t ∧
      t.responses = [.transportError] :=
  ⟨answering [.nack] ready, _, 0, 0, rfl, rfl, rfl, rfl, by decide⟩

theorem witness_ReservedWordsEndWithInvalidArgument :
    (∀ row ∈ requestMap, (0xA000 : ReqWord) &&& row.2 ≠ row.1) ∧
    (∀ row ∈ requestMap, (0x0801 : ReqWord) &&& row.2 ≠ row.1) ∧
    (ready.putInbox [.request 0xA000]).inbox = [.request 0xA000] :=
  ⟨by simp [requestMap], by simp [requestMap], rfl⟩

theorem witness_RequestsBeforeInit :
    ready.initialized = true ∧ needsInit .probe = true ∧ fresh.initialized = false ∧ argumentsOk fresh.config .probe = true ∧
    needsInit (.writeChar 0) = true ∧ argumentsOk fresh.config (.writeChar 0) = false ∧
    argumentsOk fresh.config (.setCursor 19 3) = true ∧ argumentsOk fresh.config (.setCursor 20 0) = false ∧
    argumentsOk fresh.config (.init true) = false := by decide

/-- A request and a protocol-engine call that answer a next state; a request that succeeds and one that fails. -/
theorem witness_whole_machine_rules :
    ∃ t u v, exec .home ready = .next t ∧ t.responses = [.ok] ∧ exec .hdReturnHome ready = .next u ∧
      u.returns = [.ok] ∧ exec .home (answering [.nack] ready) = .next v ∧ v.responses = [.transportError] :=
  ⟨_, _, _, rfl, by decide, rfl, by decide, rfl, by decide⟩

/-- PROBE has 1 transaction, WRITE_CHAR 6, ENTRY_DISPLAY_SHIFT 0; each of the three ends as its clause needs. -/
theorem witness_MinimumDurations :
    ∃ t u v, exec .probe ready = .next t ∧ t.responses = ready.responses ++ [.ok] ∧
      exec (.hdWriteData 0) ready = .next u ∧ u.returns = ready.returns ++ [.ok] ∧
      busTransactions .entryDisplayShift = 0 ∧ exec .entryDisplayShift ready = .next v ∧
      v.trace = ready.trace ++ [] :=
  ⟨_, _, _, rfl, by decide, rfl, by decide, rfl, rfl, rfl⟩

/-- `s` whose controller has just come through INIT. -/
def afterInit (s : State) : State := { s with trace := fresh.initEvents }

theorem init_ready : (wireAfter fresh.initEvents).Ready := by
  constructor <;> decide +kernel

theorem afterInit_ready (s : State) : (wireAfter (afterInit s).trace).Ready := init_ready

theorem witness_ControllerReceivesTheEmittedBytes :
    StateSound (afterInit ready) ∧ (afterInit ready).initialized = true ∧ needsInit (.writeChar 0x41) = true ∧
    argumentsOk (afterInit ready).config (.writeChar 0x41) = true ∧
    AcksAhead (afterInit ready) (busTransactions (.writeChar 0x41)) ∧ (wireAfter (afterInit ready).trace).Ready ∧
    controllerView (afterInit ready).trace =
      some [(0x28, false), (0x0C, false), (0x01, false), (0x06, false), (0x02, false)] :=
  ⟨ready_sound.congr rfl rfl rfl rfl rfl rfl rfl, rfl, rfl, by decide, by decide, afterInit_ready _, by decide +kernel⟩

theorem witness_ControllerReceivesTheInitSequence :
    configWf fresh.config = true ∧ fresh.initialized = false ∧ AcksAhead fresh 42 ∧ (0 : Byte).getLsbD 2 = false := by
  decide

/-- SET_CURSOR (0,1): a command byte reaches the controller. -/
theorem witness_NoRequestEmitsSetCgramAddress :
    ∃ t es, StateSound ready ∧ (Instr.setCursor 0 1).isTransfer = false ∧ exec (.setCursor 0 1) ready = .next t ∧
      t.trace = ready.trace ++ es ∧ inStepWire.Ready ∧ inStepWire.bytes = [] ∧
      (es.foldl Wire.after inStepWire).inStep = true ∧ (es.foldl Wire.after inStepWire).bytes = [(0xC0, false)] :=
  ⟨_, _, ready_sound, rfl, rfl, rfl, ⟨rfl, rfl, rfl⟩, rfl, by decide, by decide⟩

/-- A WRITE_CHAR whose last write fails; then a HOME, all acknowledged, which restores nothing. -/
theorem witness_FailedWritesDesynchronise :
    ∃ t u es, exec (.writeChar 0x41) (answering [.ack, .ack, .ack, .ack, .ack, .nack] (afterInit ready)) = .next t ∧
      t.trace = (afterInit ready).trace ++ es ∧ Event.write 0 0x3F 0x19 .nack ∈ es ∧ controllerView t.trace = none ∧
      Instr.home ≠ .init false ∧ exec .home (answering (List.replicate 6 .ack) t) = .next u ∧
      u.responses = [.transportError, .ok] :=
  ⟨_, _, _, rfl, rfl, by decide +kernel, by decide +kernel, by decide, rfl, by decide +kernel⟩

/-- Each of the six writes can be the one that fails; a half byte, at both wait times next to 40; and EN left high. -/
theorem witness_HalfAByteShiftsEveryLaterByte :
    (afterInit ready).initialized = true ∧ (wireAfter (afterInit ready).trace).Ready ∧
    (∀ k < 6, (∀ j < k, (answering (List.replicate k .ack ++ [.nack]) (afterInit ready)).responseAt j = .ack) ∧
      (answering (List.replicate k .ack ++ [.nack]) (afterInit ready)).responseAt k ≠ .ack) ∧
    ({ inStepWire with phase := .half ⟨0x4, true⟩ } : Wire).phase = .half ⟨0x4, true⟩ ∧ inStepWire.en = some false ∧
    39 ≠ 40 ∧ 41 ≠ 40 ∧ ({ inStepWire with en := some true } : Wire).phase = .whole ∧ (0x38 : Byte).getLsbD 2 = false :=
  ⟨rfl, afterInit_ready _, by decide, rfl, rfl, by decide, by decide, rfl, by decide⟩

theorem witness_EveryRequestKeepsTheControllerInStep :
    ∃ t, WireSound (afterInit ready) ∧ (wireAfter (afterInit ready).trace).inStep = true ∧
      exec .home (afterInit ready) = .next t ∧ t.responses = [.ok] :=
  ⟨_, fun _ => afterInit_ready _, by decide +kernel, rfl, by decide +kernel⟩

/-- Two characters acknowledged; then one whose fourth write fails, which is no first write of a character. -/
theorem witness_WriteStringStopsAtTheFirstFailure :
    StateSound (answering (List.replicate 15 .ack ++ [.nack]) ready) ∧
    (answering (List.replicate 15 .ack ++ [.nack]) ready).initialized = true ∧
    (∀ c ∈ ([0x48, 0x69] : List Byte), c ≠ 0) ∧ AcksAhead (answering (List.replicate 15 .ack ++ [.nack]) ready) 12 ∧
    (match execWriteString [0x48, 0x69, 0x21, 0x21] (answering (List.replicate 15 .ack ++ [.nack]) ready) with
      | .next (r, t) => r = .transportError && t.responses = [.ok, .ok, .transportError]
      | .fault _ => false
      | .refused _ => false) = true ∧
    (∃ u, exec (.writeChar 0x48) (answering [.ack, .nack] ready) = .next u ∧
      u.responses = (answering [.ack, .nack] ready).responses ++ [.transportError]) ∧ fresh.initialized = false :=
  ⟨ready_sound.congr rfl rfl rfl rfl rfl rfl rfl, rfl, by decide, by decide, by decide +kernel, ⟨_, rfl, by decide⟩, rfl⟩

end Sys2Proof.Tests
end

section
/-! PROOFS. The statements on the state (spec/10_state.md): construction and configurations, what a step runs, the frame
of every instruction, the commit discipline, and the invariant. -/

namespace Sys2Proof.Machine

/-! ### Configurations and construction -/

/-- R21: the configurations that are well formed, row count by row count. -/
theorem configWf_iff {c : Config} : configWf c = true ↔
    1 ≤ c.columns ∧ ((c.rows = 1 ∧ c.columns + 0x00 ≤ 128) ∨ (c.rows = 2 ∧ c.columns + 0x40 ≤ 128) ∨
      (c.rows = 4 ∧ c.columns + 0x54 ≤ 128)) := by
  constructor
  · intro h
    obtain ⟨hrows, hcols, hmax, htwo, hfour⟩ := configWf_bounds h
    omega
  · rintro ⟨hcols, ⟨hrows, hmax⟩ | ⟨hrows, hmax⟩ | ⟨hrows, hmax⟩⟩ <;>
      simp [configWf, hrows, rowOffset] <;> omega

/-- An encoder is constructed exactly with a well-formed configuration, and is then `State.construct` of it. -/
theorem State.construct?_eq_some {c : Config} {s : State} :
    State.construct? c = some s ↔ configWf c = true ∧ s = State.construct c := by
  unfold State.construct?
  split
  next hc => simp [hc, eq_comm (a := s)]
  next hc => simp [hc]

/-- A position inside a well-formed geometry has a 7-bit DDRAM address (R202). -/
theorem ddramAddress_lt {c : Config} {x : BitVec 7} {y : BitVec 2} (hc : configWf c = true)
    (hx : x.toNat < c.columns) (hy : y.toNat < c.rows) : ddramAddress x y < 2 ^ 7 := by
  obtain ⟨hrows, -, hmax, htwo, hfour⟩ := configWf_bounds hc
  have hrow : y.toNat = 0 ∨ y.toNat = 1 ∨ y.toNat = 2 ∨ y.toNat = 3 := by omega
  rcases hrow with h | h | h | h <;> simp only [ddramAddress, rowOffset, h] <;> omega

/-- The invariant holds of an encoder just constructed: nothing has a value yet (R32). -/
theorem StateSound.construct {c : Config} (hc : configWf c = true) : StateSound (State.construct c) where
  config := hc
  function := rfl
  control := rfl
  mode := rfl
  col := rfl
  row := rfl
  controlLegal := nofun
  modeLegal := nofun
  colLegal := nofun
  rowLegal := nofun

/-! ### The cursor stays on the display -/

/-- NEXT_ROW leads to a row of the display. -/
theorem nextRow_lt {n r q : Nat} (h : nextRow n r = some q) : q < n := by
  unfold nextRow at h
  split at h <;> cases h <;> decide

/-- PREV_ROW leads to a row of the display. -/
theorem prevRow_lt {n r q : Nat} (h : prevRow n r = some q) : q < n := by
  unfold prevRow at h
  split at h <;> cases h <;> decide

theorem Position.valid_iff {c : Config} {p : Position} : p.valid c = true ↔ p.col < c.columns ∧ p.row < c.rows := by
  simp [Position.valid]

theorem advanceOneRow_valid {c : Config} {p : Position} (hrows : c.rows = 1) (hp : p.valid c = true) :
    (advanceOneRow c p).valid c = true := by
  rw [Position.valid_iff] at *
  unfold advanceOneRow
  split
  · exact ⟨by assumption, by simp [hrows]⟩
  · split <;> simp only <;> omega

theorem retreatOneRow_valid {c : Config} {p : Position} (hrows : c.rows = 1) (hp : p.valid c = true) :
    (retreatOneRow c p).valid c = true := by
  rw [Position.valid_iff] at *
  unfold retreatOneRow
  split
  · simp only; omega
  · split <;> simp only <;> omega

/-- A valid row of a display with more than one row is in both row tables (R205, R207). -/
theorem row_mem_tables {c : Config} {p : Position} (hc : configWf c = true) (hp : p.valid c = true)
    (hrows : c.rows ≠ 1) : c.rows = 2 ∧ p.row < 2 ∨ c.rows = 4 ∧ p.row < 4 := by
  rw [Position.valid_iff] at hp
  have := (configWf_bounds hc).1
  omega

/-- `advance` of a valid position exists and is valid (R204, R210). -/
theorem advance_valid {c : Config} {p : Position} (hc : configWf c = true) (hp : p.valid c = true) :
    ∃ q, advance c p = some q ∧ q.valid c = true := by
  unfold advance
  split
  next hrows => exact ⟨_, rfl, advanceOneRow_valid hrows hp⟩
  next hrows =>
    obtain ⟨q, hq, -⟩ := prevRow_nextRow (row_mem_tables hc hp hrows)
    have hcols := (configWf_bounds hc).2.1
    rw [Position.valid_iff] at hp
    split
    next hcol => exact ⟨_, rfl, Position.valid_iff.2 ⟨hcol, hp.2⟩⟩
    next => exact ⟨⟨0, q⟩, by simp [hq], Position.valid_iff.2 ⟨by simp only; omega, nextRow_lt hq⟩⟩

/-- `retreat` of a valid position exists and is valid (R206, R210). -/
theorem retreat_valid {c : Config} {p : Position} (hc : configWf c = true) (hp : p.valid c = true) :
    ∃ q, retreat c p = some q ∧ q.valid c = true := by
  unfold retreat
  split
  next hrows => exact ⟨_, rfl, retreatOneRow_valid hrows hp⟩
  next hrows =>
    obtain ⟨q, hq, -⟩ := nextRow_prevRow (row_mem_tables hc hp hrows)
    have hcols := (configWf_bounds hc).2.1
    rw [Position.valid_iff] at hp
    split
    next => exact ⟨_, rfl, Position.valid_iff.2 ⟨by simp only; omega, hp.2⟩⟩
    next => exact ⟨⟨c.columns - 1, q⟩, by simp [hq], Position.valid_iff.2 ⟨by simp only; omega, prevRow_lt hq⟩⟩

theorem cursorStep_valid {c : Config} {p : Position} (m : Byte) (hc : configWf c = true) (hp : p.valid c = true) :
    ∃ q, cursorStep c m p = some q ∧ q.valid c = true := by
  rw [cursorStep_eq]
  split
  · exact advance_valid hc hp
  · exact retreat_valid hc hp

/-! ### What an initialized encoder holds -/

/-- Under the invariant an initialized encoder holds a legal value in every field (R24 to R28, R30). -/
theorem StateSound.legal_fields {s : State} (hs : StateSound s) (hi : s.initialized = true) :
    ∃ v m x y, s.control = some v ∧ s.mode = some m ∧ s.col = some x ∧ s.row = some y ∧ v &&& 0xF8 = 0 ∧
      (m = 0x00 ∨ m = 0x02) ∧ Position.valid s.config ⟨x.toNat, y.toNat⟩ = true := by
  obtain ⟨v, hv⟩ := Option.isSome_iff_exists.1 (hs.control.trans hi)
  obtain ⟨m, hm⟩ := Option.isSome_iff_exists.1 (hs.mode.trans hi)
  obtain ⟨x, hx⟩ := Option.isSome_iff_exists.1 (hs.col.trans hi)
  obtain ⟨y, hy⟩ := Option.isSome_iff_exists.1 (hs.row.trans hi)
  exact ⟨v, m, x, y, hv, hm, hx, hy, hs.controlLegal v hv, hs.modeLegal m hm,
    Position.valid_iff.2 ⟨hs.colLegal x hx, hs.rowLegal y hy⟩⟩

/-- Under the invariant the cursor step of an initialized encoder commits a position on the display. -/
theorem StateSound.cursorCommit_eq {s : State} (hs : StateSound s) (hi : s.initialized = true) :
    ∃ p, cursorCommit s = some (s.putCursor p) ∧ p.valid s.config = true := by
  obtain ⟨v, m, x, y, -, hm, hx, hy, -, -, hp⟩ := hs.legal_fields hi
  obtain ⟨q, hq, hvalid⟩ := cursorStep_valid m hs.config hp
  exact ⟨q, by simp [cursorCommit, hm, hx, hy, hq], hvalid⟩

/-! ### Commits keep the invariant -/

/-- Setting or clearing one of D, C and B keeps the control register legal (R25). -/
theorem withBit_control_legal {v bit : Byte} (on : Bool) (hv : v &&& 0xF8 = 0) (hbit : bit &&& 0xF8 = 0) :
    withBit v bit on &&& 0xF8 = 0 := by
  cases on with
  | true =>
    change (v ||| bit) &&& 0xF8 = 0
    rw [BitVec.and_or_distrib_right, hv, hbit]
    rfl
  | false =>
    change v &&& ~~~bit &&& 0xF8 = 0
    rw [BitVec.and_assoc, BitVec.and_comm (~~~bit), ← BitVec.and_assoc, hv]
    exact BitVec.zero_and

/-- Setting or clearing I/D keeps the entry mode legal (R26). -/
theorem withBit_mode_legal {m : Byte} (on : Bool) (hm : m = 0x00 ∨ m = 0x02) :
    withBit m bitID on = 0x00 ∨ withBit m bitID on = 0x02 := by
  rcases hm with rfl | rfl <;> cases on <;> decide

/-- A well-formed geometry holds the position (0,0). -/
theorem origin_valid {c : Config} (hc : configWf c = true) : Position.valid c ⟨0, 0⟩ = true := by
  obtain ⟨hrows, hcols, -⟩ := configWf_bounds hc
  exact Position.valid_iff.2 ⟨hcols, by simp only; omega⟩

/-- INIT's commit gives every field a legal value (R143). -/
theorem StateSound.initCommit {s : State} (hs : StateSound s) : StateSound (initCommit s) := by
  have horigin := Position.valid_iff.1 (origin_valid hs.config)
  constructor <;> simp [Machine.initCommit]
  case config => exact hs.config
  case controlLegal => decide
  case modeLegal => decide
  case colLegal => exact horigin.1
  case rowLegal => exact horigin.2

section
variable {u : State} (hs : StateSound u) (hi : u.initialized = true)
include hs hi

theorem StateSound.putControl_withBit {bit : Byte} (on : Bool) (hbit : bit &&& 0xF8 = 0) :
    StateSound (u.putControl (withBit (u.control.getD 0) bit on)) := by
  obtain ⟨v, m, x, y, hv, -, -, -, hlegal, -⟩ := hs.legal_fields hi
  rw [hv]
  exact hs.putControl hi (withBit_control_legal on hlegal hbit)

theorem StateSound.putMode_withBit (on : Bool) : StateSound (u.putMode (withBit (u.mode.getD 0) bitID on)) := by
  obtain ⟨v, m, x, y, -, hm, -, -, -, hlegal, -⟩ := hs.legal_fields hi
  rw [hm]
  exact hs.putMode hi (withBit_mode_legal on hlegal)

theorem StateSound.putCursor_origin : StateSound (u.putCursor ⟨0, 0⟩) := hs.putCursor hi (origin_valid hs.config)

theorem StateSound.of_cursorCommit {v : State} (h : cursorCommit u = some v) : StateSound v := by
  obtain ⟨p, hp, hvalid⟩ := hs.cursorCommit_eq hi
  rw [hp] at h
  cases h
  exact hs.putCursor hi hvalid

/-- What a request commits on an initialized encoder is sound, when its operands passed the argument checks. -/
theorem StateSound.requestCommit {i : Instr} {v : State} (ha : argumentsOk u.config i = true)
    (h : requestCommit i u = some v) : StateSound v := by
  cases i
  case writeChar => exact hs.of_cursorCommit hi h
  case shiftLeft => exact hs.of_cursorCommit hi h
  case shiftRight => exact hs.of_cursorCommit hi h
  all_goals cases h
  case init => exact hs.initCommit
  case home => exact hs.putCursor_origin hi
  case clear => exact (hs.putCursor_origin hi).putMode_withBit hi true
  case setCursor x y => exact hs.putCursor hi ha
  case displayOn => exact hs.putControl_withBit hi true (by decide)
  case displayOff => exact hs.putControl_withBit hi false (by decide)
  case cursorOn => exact hs.putControl_withBit hi true (by decide)
  case cursorOff => exact hs.putControl_withBit hi false (by decide)
  case blinkOn => exact hs.putControl_withBit hi true (by decide)
  case blinkOff => exact hs.putControl_withBit hi false (by decide)
  case leftToRight => exact hs.putMode_withBit hi true
  case rightToLeft => exact hs.putMode_withBit hi false
  all_goals exact hs

end

/-! ### Every instruction and every step keeps the invariant -/

/-- An argument check that fails ends the request at once (R232 step 3). -/
theorem exec_of_arguments_bad {i : Instr} {s : State} (ha : argumentsOk s.config i = false) :
    exec i s = .next (s.deliver .invalidArgument) := by
  cases i with
  | init e =>
    obtain rfl : e = true := by simpa [argumentsOk] using ha
    rfl
  | writeChar c =>
    obtain rfl : c = 0 := by simpa [argumentsOk] using ha
    rfl
  | setCursor x y =>
    change inGeometry s.config x y = false at ha
    simp [exec, execSetCursor, ha]
  | _ => cases ha

theorem exec_request_sound {i : Instr} {s t : State} (hq : i.isTransfer = false) (hs : StateSound s)
    (h : exec i s = .next t) : StateSound t := by
  cases ha : argumentsOk s.config i with
  | false =>
    rw [exec_of_arguments_bad ha] at h
    cases h
    exact hs.deliver _
  | true =>
    rcases exec_request_next hq h with ⟨r, -, rfl⟩ | ⟨hinit, r, n, es, -, hran⟩
    · exact hs.deliver r
    · have hu := (hs.requestStart i).afterBus n es
      rcases hran with ⟨-, rfl⟩ | ⟨-, v, hcommit, rfl⟩ | ⟨-, -, rfl⟩
      · exact hu.deliver r
      · refine StateSound.deliver ?_ _
        rcases hinit with ⟨rfl, -⟩ | hi
        · cases hcommit
          exact hu.initCommit
        · obtain ⟨hconfig, -, -, -, -, hinitialized, -⟩ := requestStart_frame i s
          exact hu.requestCommit (hinitialized.trans hi) (by simpa [hconfig] using ha) hcommit
      · exact hu.deliver _

theorem exec_sound {i : Instr} {s t : State} (hs : StateSound s) (h : exec i s = .next t) : StateSound t := by
  cases hq : i.isTransfer with
  | false => exact exec_request_sound hq hs h
  | true =>
    obtain ⟨r, n, es, -, rfl⟩ := exec_transfer_next hq h
    exact (hs.afterBus n es).giveBack r

theorem step_of_decode_ok {s : State} {c : Command} {rest : List Command} {i : Instr} (hin : s.inbox = c :: rest)
    (hd : decode c = .ok i) : step s = exec i (s.putInbox rest) := by
  simp [step, hin, hd]

theorem step_of_decode_error {s : State} {c : Command} {rest : List Command} {why : DecodeError}
    (hin : s.inbox = c :: rest) (hd : decode c = .error why) : step s = execUnlisted why (s.putInbox rest) := by
  simp [step, hin, hd]

theorem step_sound {s t : State} (hs : StateSound s) (h : step s = .next t) : StateSound t := by
  cases hin : s.inbox with
  | nil =>
    simp only [step, hin] at h
    cases h
    exact hs
  | cons c rest =>
    cases hd : decode c with
    | ok i =>
      rw [step_of_decode_ok hin hd] at h
      exact exec_sound (hs.putInbox rest) h
    | error why =>
      rw [step_of_decode_error hin hd] at h
      obtain ⟨r, n, es, rfl⟩ := execUnlisted_next h
      exact ((hs.putInbox rest).afterBus n es).giveBack r

/-! ### Every instruction but WRITE_CUSTOM_GLYPH answers -/

/-- The answer is a next state: neither a fault nor a refusal. -/
def Answers (a : Answer) : Prop := ∃ t, a = .next t

theorem requireInitialized_answers {s : State} {go : Answer} (h : s.initialized = true → Answers go) :
    Answers (requireInitialized s go) := by
  cases hi : s.initialized with
  | true =>
    rw [requireInitialized_of_initialized hi]
    exact h hi
  | false => exact ⟨_, requireInitialized_of_not hi go⟩

theorem readField_answers {α : Type} {f : Field} {v : Option α} {go : α → Answer} (hv : v.isSome = true)
    (h : ∀ x, Answers (go x)) : Answers (readField f v go) := by
  obtain ⟨x, rfl⟩ := Option.isSome_iff_exists.1 hv
  exact h x

theorem transmit_answers {plan : List Prim} {s : State} {go : State → Answer}
    (h : ∀ n es, Answers (go (s.afterBus n es))) : Answers (transmit plan s go) := by
  obtain ⟨n, es, hrun⟩ := runPlan_frame plan s
  rw [transmit_eq, hrun]
  split
  · exact h n es
  · exact ⟨_, rfl⟩

theorem transmitCommit_answers (plan : List Prim) (commit : State → State) (s : State) :
    Answers (transmitCommit plan commit s) :=
  ⟨_, rfl⟩

section
variable {s : State} (hs : StateSound s)
include hs

theorem stepCursorAndEnd_answers (hi : s.initialized = true) : Answers (stepCursorAndEnd s) := by
  obtain ⟨v, m, x, y, -, hm, hx, hy, -, -, hp⟩ := hs.legal_fields hi
  obtain ⟨q, hq, -⟩ := cursorStep_valid m hs.config hp
  exact ⟨_, stepCursorAndEnd_of_step hm hx hy hq⟩

/-- The end of WRITE_CHAR and of the shifts, behind their checks. -/
theorem transmit_stepCursor_answers (plan : List Prim) :
    Answers (requireInitialized s (transmit plan s stepCursorAndEnd)) :=
  requireInitialized_answers fun hi => transmit_answers fun n es => stepCursorAndEnd_answers (hs.afterBus n es) hi

theorem execClear_answers : Answers (execClear s) :=
  requireInitialized_answers fun hi => transmit_answers fun _ _ =>
    readField_answers (hs.mode.trans hi) fun _ => ⟨_, rfl⟩

theorem setControl_answers (bit : Byte) (on : Bool) : Answers (setControl bit on s) :=
  requireInitialized_answers fun hi => readField_answers (hs.control.trans hi) fun _ => transmitCommit_answers _ _ _

theorem setEntry_answers (inc : Bool) : Answers (setEntry inc s) :=
  requireInitialized_answers fun hi => readField_answers (hs.mode.trans hi) fun _ => transmitCommit_answers _ _ _

theorem setBacklight_answers (v : Bool) : Answers (setBacklight v s) :=
  requireInitialized_answers fun hi => readField_answers (hs.col.trans hi) fun _ =>
    readField_answers (hs.row.trans hi) fun _ => transmitCommit_answers _ _ _

/-- A request other than WRITE_CUSTOM_GLYPH whose operands pass the argument checks answers. -/
theorem exec_request_answers {i : Instr} (hq : i.isTransfer = false) (ha : argumentsOk s.config i = true)
    (hg : ∀ slot, i ≠ .writeCustomGlyph slot) : Answers (exec i s) := by
  cases i with
  | init e =>
    obtain rfl : e = false := by simpa [argumentsOk] using ha
    change Answers (if s.initialized then endRequest .invalidState s else transmitCommit _ _ s)
    split <;> exact ⟨_, rfl⟩
  | probe => exact requireInitialized_answers fun _ => transmitCommit_answers _ _ _
  | writeChar c =>
    have hc : c ≠ 0 := by simpa [argumentsOk] using ha
    change Answers (execWriteChar c s)
    rw [execWriteChar, if_neg hc]
    exact transmit_stepCursor_answers hs _
  | home => exact requireInitialized_answers fun _ => transmitCommit_answers _ _ _
  | setCursor x y =>
    change inGeometry s.config x y = true at ha
    change Answers (execSetCursor x y s)
    rw [execSetCursor, if_pos ha]
    exact requireInitialized_answers fun _ => transmitCommit_answers _ _ _
  | clear => exact execClear_answers hs
  | displayOn => exact setControl_answers hs bitD true
  | displayOff => exact setControl_answers hs bitD false
  | cursorOn => exact setControl_answers hs bitC true
  | cursorOff => exact setControl_answers hs bitC false
  | blinkOn => exact setControl_answers hs bitB true
  | blinkOff => exact setControl_answers hs bitB false
  | shiftLeft => exact transmit_stepCursor_answers hs _
  | shiftRight => exact transmit_stepCursor_answers hs _
  | leftToRight => exact setEntry_answers hs true
  | rightToLeft => exact setEntry_answers hs false
  | backlightOn => exact setBacklight_answers hs true
  | backlightOff => exact setBacklight_answers hs false
  | writeCustomGlyph slot => exact absurd rfl (hg slot)
  | entryDisplayShift => exact ⟨_, rfl⟩
  | reserved w => exact ⟨_, rfl⟩
  | _ => cases hq

theorem exec_answers {i : Instr} (hg : ∀ slot, i ≠ .writeCustomGlyph slot) : Answers (exec i s) := by
  cases hq : i.isTransfer with
  | true => exact ⟨_, exec_transfer_eq hq s⟩
  | false =>
    cases ha : argumentsOk s.config i with
    | false => exact ⟨_, exec_of_arguments_bad ha⟩
    | true => exact exec_request_answers hs hq ha hg

theorem exec_answers_or_glyph (i : Instr) :
    Answers (exec i s) ∨ ∃ slot, i = .writeCustomGlyph slot ∧ exec i s = .refused (.customGlyph slot) := by
  by_cases hg : ∃ slot, i = .writeCustomGlyph slot
  · obtain ⟨slot, rfl⟩ := hg
    exact .inr ⟨slot, rfl, rfl⟩
  · exact .inl (exec_answers hs fun slot h => hg ⟨slot, h⟩)

/-- Under the invariant no instruction faults: no `⊥` is read (R32). -/
theorem exec_ne_fault (i : Instr) (f : Fault) : exec i s ≠ .fault f := by
  intro h
  rcases exec_answers_or_glyph hs i with ⟨t, ht⟩ | ⟨slot, -, hr⟩
  · exact nomatch ht.symm.trans h
  · exact nomatch hr.symm.trans h

end

/-! ### The events of a plan -/

theorem writeResult_ne_ok {r : BusResponse} (hr : r ≠ .ack) : writeResult r ≠ .ok := by
  cases r <;> simp [writeResult] at *

theorem probeResult_ne_ok {r : BusResponse} (hr : r ≠ .ack) : probeResult r ≠ .ok := by
  cases r <;> simp [probeResult] at *

theorem ackedEvents_result {s : State} {ps : List Prim} : ∀ e ∈ ackedEvents s ps, e.result = .ok := by
  induction ps with
  | nil => nofun
  | cons p ps ih => cases p <;> exact List.forall_mem_cons.2 ⟨rfl, ih⟩

theorem State.afterBus_events_inj {s : State} {n m : Nat} {es fs : List Event}
    (h : s.afterBus n es = s.afterBus m fs) : es = fs :=
  List.append_cancel_left (congrArg State.trace h)

/-- The last event of `es` is the only one that is not OK, and its result is `r` (R31, R234). -/
def EndsInFailure (es : List Event) (r : ResultCode) : Prop :=
  ∃ front last, es = front ++ [last] ∧ (∀ e ∈ front, e.result = .ok) ∧ last.result = r ∧ r ≠ .ok

/-- A plan returns OK with events that are all OK, or ends at the first that is not, with its result. -/
theorem runPlan_result_events {ps : List Prim} {s : State} {r : ResultCode} {n : Nat} {es : List Event}
    (h : runPlan ps s = (r, s.afterBus n es)) :
    (r = .ok ∧ ∀ e ∈ es, e.result = .ok) ∨ EndsInFailure es r := by
  rcases runPlan_cases ps s with ⟨-, hrun⟩ | ⟨front, p, back, br, -, -, -, hbr, ⟨b, -, hrun⟩ | ⟨-, hrun⟩⟩ <;>
    obtain ⟨hr, hstate⟩ := Prod.mk.inj (h.symm.trans hrun) <;>
    obtain rfl := State.afterBus_events_inj hstate
  · exact .inl ⟨hr, ackedEvents_result⟩
  · exact .inr ⟨_, _, rfl, ackedEvents_result, hr.symm, hr ▸ writeResult_ne_ok hbr⟩
  · exact .inr ⟨_, _, rfl, ackedEvents_result, hr.symm, hr ▸ probeResult_ne_ok hbr⟩

/-! ### What each instruction leaves unchanged -/

/-- The backlight flag a request's plan starts from: the state's, or the one a backlight request writes (R183). -/
theorem requestStart_backlightOn (i : Instr) (s : State) :
    (requestStart i s).backlightOn = s.backlightOn ∨ (i = .backlightOn ∧ (requestStart i s).backlightOn = true) ∨
      (i = .backlightOff ∧ (requestStart i s).backlightOn = false) := by
  cases i <;> simp [requestStart]

/-- No field that a request commits differs; the backlight flag may, if the request is the one that writes it. -/
structure Uncommitted (i : Instr) (s t : State) : Prop where
  initialized : t.initialized = s.initialized
  function : t.function = s.function
  control : t.control = s.control
  mode : t.mode = s.mode
  col : t.col = s.col
  row : t.row = s.row
  backlight : t.backlightOn = s.backlightOn ∨ (i = .backlightOn ∧ t.backlightOn = true) ∨
    (i = .backlightOff ∧ t.backlightOn = false)

theorem Uncommitted.deliver_start (i : Instr) (s : State) (n : Nat) (es : List Event) (r : ResultCode) :
    Uncommitted i s (((requestStart i s).afterBus n es).deliver r) := by
  obtain ⟨-, -, -, -, -, hinit, hfunction, hcontrol, hmode, hcol, hrow⟩ := requestStart_frame i s
  exact ⟨hinit, hfunction, hcontrol, hmode, hcol, hrow, requestStart_backlightOn i s⟩

/-- Where `i` may lead from `s`: the "written by" column of R22, with the trace growing (R12) and `C` and the inbox
left alone (R20). -/
structure InstrFrame (i : Instr) (s t : State) : Prop where
  config : t.config = s.config
  inbox : t.inbox = s.inbox
  trace : ∃ es, t.trace = s.trace ++ es
  initializedKept : s.initialized = true → t.initialized = true
  initialized : (∀ e, i ≠ .init e) → t.initialized = s.initialized
  function : (∀ e, i ≠ .init e) → t.function = s.function
  control : (∀ e, i ≠ .init e) →
    i ∉ ([.displayOn, .displayOff, .cursorOn, .cursorOff, .blinkOn, .blinkOff] : List Instr) → t.control = s.control
  mode : (∀ e, i ≠ .init e) → i ∉ ([.clear, .leftToRight, .rightToLeft] : List Instr) → t.mode = s.mode
  cursor : (∀ e, i ≠ .init e) → (∀ x y, i ≠ .setCursor x y) → (∀ c, i ≠ .writeChar c) →
    i ∉ ([.clear, .home, .shiftLeft, .shiftRight] : List Instr) → t.col = s.col ∧ t.row = s.row
  backlight : i ∉ ([.backlightOn, .backlightOff] : List Instr) → t.backlightOn = s.backlightOn

theorem InstrFrame.trans {i : Instr} {s u t : State} (h : InstrFrame i s u) (k : InstrFrame i u t) :
    InstrFrame i s t where
  config := k.config.trans h.config
  inbox := k.inbox.trans h.inbox
  trace := by
    obtain ⟨es, he⟩ := h.trace
    obtain ⟨fs, hf⟩ := k.trace
    exact ⟨es ++ fs, by rw [hf, he, List.append_assoc]⟩
  initializedKept hi := k.initializedKept (h.initializedKept hi)
  initialized hi := (k.initialized hi).trans (h.initialized hi)
  function hi := (k.function hi).trans (h.function hi)
  control hi hm := (k.control hi hm).trans (h.control hi hm)
  mode hi hm := (k.mode hi hm).trans (h.mode hi hm)
  cursor hi hset hchar hm :=
    ⟨(k.cursor hi hset hchar hm).1.trans (h.cursor hi hset hchar hm).1,
      (k.cursor hi hset hchar hm).2.trans (h.cursor hi hset hchar hm).2⟩
  backlight hm := (k.backlight hm).trans (h.backlight hm)

theorem instrFrame_afterBus (i : Instr) (s : State) (n : Nat) (es : List Event) : InstrFrame i s (s.afterBus n es) := by
  constructor <;> simp

theorem instrFrame_deliver (i : Instr) (s : State) (r : ResultCode) : InstrFrame i s (s.deliver r) := by
  constructor <;> simp

theorem instrFrame_giveBack (i : Instr) (s : State) (r : ResultCode) : InstrFrame i s (s.giveBack r) := by
  constructor <;> simp

theorem instrFrame_requestStart (i : Instr) (s : State) : InstrFrame i s (requestStart i s) := by
  obtain ⟨hconfig, hinbox, htrace, -, -, hinit, hfunction, hcontrol, hmode, hcol, hrow⟩ := requestStart_frame i s
  constructor <;> simp [hconfig, hinbox, htrace, hinit, hfunction, hcontrol, hmode, hcol, hrow]
  case backlight =>
    intro hon hoff
    simpa [hon, hoff] using requestStart_backlightOn i s

theorem cursorCommit_eq_some {u v : State} (h : cursorCommit u = some v) : ∃ p, v = u.putCursor p := by
  obtain ⟨p, -, rfl⟩ := Option.map_eq_some_iff.1 h
  exact ⟨p, rfl⟩

theorem instrFrame_requestCommit {i : Instr} {u v : State} (h : requestCommit i u = some v) : InstrFrame i u v := by
  cases i
  case writeChar | shiftLeft | shiftRight =>
    obtain ⟨p, rfl⟩ := cursorCommit_eq_some h
    constructor <;> simp
  case init =>
    cases h
    constructor <;> simp [initCommit]
  all_goals
    cases h
    constructor <;> simp

theorem Ran.instrFrame {i : Instr} {s t : State} (h : Ran i s t) : InstrFrame i s t := by
  obtain ⟨r, n, es, -, hran⟩ := h
  have hbus := (instrFrame_requestStart i s).trans (instrFrame_afterBus i _ n es)
  rcases hran with ⟨-, rfl⟩ | ⟨-, v, hcommit, rfl⟩ | ⟨-, -, rfl⟩
  · exact hbus.trans (instrFrame_deliver i _ r)
  · exact (hbus.trans (instrFrame_requestCommit hcommit)).trans (instrFrame_deliver i v _)
  · exact hbus.trans (instrFrame_deliver i _ _)

theorem exec_instrFrame {i : Instr} {s t : State} (h : exec i s = .next t) : InstrFrame i s t := by
  cases hq : i.isTransfer with
  | true =>
    obtain ⟨r, n, es, -, rfl⟩ := exec_transfer_next hq h
    exact (instrFrame_afterBus i s n es).trans (instrFrame_giveBack i _ r)
  | false =>
    rcases exec_request_next hq h with ⟨r, -, rfl⟩ | ⟨-, hran⟩
    · exact instrFrame_deliver i s r
    · exact hran.instrFrame

/-! ### Nothing is committed by a request that fails -/

/-- What R31 and R234 say of a request that added the events `es` and ended with `r`. -/
structure CommitsOnlyOnSuccess (i : Instr) (s t : State) (r : ResultCode) (es : List Event) : Prop where
  trace : t.trace = s.trace ++ es
  okEvents : r = .ok → ∀ e ∈ es, e.result = .ok
  failure : (∃ e ∈ es, e.result ≠ .ok) → EndsInFailure es r
  uncommitted : r ≠ .ok → Uncommitted i s t

/-- A request that got past its checks delivers one result, and commits only if that is OK. -/
theorem Ran.commitsOnlyOnSuccess {i : Instr} {s t : State} (h : Ran i s t) :
    ∃ r es, t.responses = s.responses ++ [r] ∧ CommitsOnlyOnSuccess i s t r es := by
  obtain ⟨r, n, es, hrun, hran⟩ := h
  obtain ⟨-, -, htrace, hresponses, -⟩ := requestStart_frame i s
  have hok : r = .ok → ∀ e ∈ es, e.result = .ok := by
    rintro rfl
    rcases runPlan_result_events hrun with ⟨-, hes⟩ | ⟨-, -, -, -, -, hr⟩
    · exact hes
    · exact absurd rfl hr
  have hallOk (r' : ResultCode) (hr : r = .ok) : (∃ e ∈ es, e.result ≠ .ok) → EndsInFailure es r' :=
    fun ⟨e, he, hne⟩ => absurd (hok hr e he) hne
  rcases hran with ⟨hr, rfl⟩ | ⟨hr, v, hcommit, rfl⟩ | ⟨hr, -, rfl⟩
  · rcases runPlan_result_events hrun with ⟨hr', -⟩ | hfail
    · exact absurd hr' hr
    · exact ⟨r, es, by simp [hresponses], by simp [htrace], hok, fun _ => hfail,
        fun _ => .deliver_start i s n es r⟩
  · obtain ⟨-, -, hvtrace, hvresponses, -⟩ := requestCommit_frame hcommit
    exact ⟨.ok, es, by simp [hvresponses, hresponses], by simp [hvtrace, htrace], fun _ => hok hr, hallOk _ hr,
      fun h => absurd rfl h⟩
  · exact ⟨.invalidState, es, by simp [hresponses], by simp [htrace], nofun, hallOk _ hr,
      fun _ => .deliver_start i s n es _⟩

theorem exec_request_commitsOnlyOnSuccess {i : Instr} {s t : State} (hq : i.isTransfer = false)
    (h : exec i s = .next t) : ∃ r es, t.responses = s.responses ++ [r] ∧ CommitsOnlyOnSuccess i s t r es := by
  rcases exec_request_next hq h with ⟨r, hr, rfl⟩ | ⟨-, hran⟩
  · exact ⟨r, [], rfl, by simp, fun _ => nofun, nofun, fun _ => ⟨rfl, rfl, rfl, rfl, rfl, rfl, .inl rfl⟩⟩
  · exact hran.commitsOnlyOnSuccess

end Sys2Proof.Machine

open Sys2Proof Sys2Proof.Machine

/-! ### The statements -/

/-- Settles O12: `step_sound`, by exec's inversion and a lemma per commit. -/
theorem everyStepKeepsTheInvariant : Obligations.EveryStepKeepsTheInvariant :=
  fun _ _ hs h => step_sound hs h

/-- Settles O13: every field read before an answer has a value, by the invariant. -/
theorem everyInstructionButTheGlyphAnswers : Obligations.EveryInstructionButTheGlyphAnswers :=
  fun i _ hs => exec_answers_or_glyph hs i

/-- Settles O47: a request that ran commits only when its whole plan returned OK. -/
theorem failedRequestsCommitNothing : Obligations.FailedRequestsCommitNothing := by
  intro i s t r hq h hresponse
  obtain ⟨r', es, hresponse', hcommits⟩ := exec_request_commitsOnlyOnSuccess hq h
  obtain rfl : r = r' := by simpa [hresponse] using hresponse'
  refine ⟨es, hcommits.trace, hcommits.okEvents, hcommits.failure, fun hr => ?_⟩
  obtain ⟨hinit, hfunction, hcontrol, hmode, hcol, hrow, hbacklight⟩ := hcommits.uncommitted hr
  exact ⟨hinit, hfunction, hcontrol, hmode, hcol, hrow, hbacklight⟩

/-- Settles O48: the frame of each named update, composed along what exec can do. -/
theorem fieldsAreWrittenOnlyByTheirRequests : Obligations.FieldsAreWrittenOnlyByTheirRequests := by
  intro i s t h
  have hframe := exec_instrFrame h
  exact ⟨hframe.config, hframe.inbox, hframe.trace, hframe.initializedKept,
    fun hi => ⟨hframe.initialized hi, hframe.function hi⟩, hframe.control, hframe.mode, hframe.cursor, hframe.backlight⟩

/-- Settles O6: the fields by construction; no request faults, since a constructed encoder meets the invariant. -/
theorem constructionGivesTheResetState : Obligations.ConstructionGivesTheResetState := by
  intro c s h
  obtain ⟨hc, rfl⟩ := State.construct?_eq_some.1 h
  exact ⟨rfl, rfl, rfl, rfl, rfl, rfl, rfl, rfl, rfl, rfl, rfl, rfl, rfl, rfl, exec_ne_fault (.construct hc)⟩

/-- Settles O7: R21's bounds are `configWf`, which is what construction checks. -/
theorem onlyWellFormedConfigurationsAreConstructed : Obligations.OnlyWellFormedConfigurationsAreConstructed := by
  constructor
  · intro c
    rw [← configWf_iff]
    simp only [State.construct?_eq_some, exists_and_left, exists_eq, and_true]
  · intro c s x y h hx hy
    exact ddramAddress_lt (State.construct?_eq_some.1 h).1 hx hy

/-- Settles O8: `StateSound.construct`; the configuration of `State.reset` is well formed. -/
theorem constructedEncodersMeetTheInvariant : Obligations.ConstructedEncodersMeetTheInvariant := by
  constructor
  · intro c s h
    obtain ⟨hc, rfl⟩ := State.construct?_eq_some.1 h
    exact .construct hc
  · exact StateSound.construct (c := resetConfig) (by decide)

/-- Settles O9: the step's case for a command that decodes. -/
theorem stepRunsTheDecodedCommand : Obligations.StepRunsTheDecodedCommand :=
  fun _ _ _ _ hin hd => step_of_decode_ok hin hd

end

section
/-! PROOFS. The statements on what lies behind the bus port (spec/20_memory.md): where every payload byte goes and what
it carries, which command bytes the requests send, and that the controller is left between two bytes. -/

namespace Sys2Proof.Machine

/-! ### What every instruction sends -/

/-- The bus traffic of an instruction, from the state it is given in. -/
def instrPlan (i : Instr) (s : State) : List Prim := if i.isTransfer then transferPlan i s else requestPlan i s

theorem instrPlan_of_transfer {i : Instr} (hq : i.isTransfer = true) (s : State) : instrPlan i s = transferPlan i s :=
  if_pos hq

theorem instrPlan_of_request {i : Instr} (hq : i.isTransfer = false) (s : State) : instrPlan i s = requestPlan i s :=
  if_neg (Bool.not_eq_true _ ▸ hq)

theorem requestStart_of_transfer {i : Instr} (hq : i.isTransfer = true) (s : State) : requestStart i s = s := by
  cases i with
  | backlightOn | backlightOff => cases hq
  | _ => rfl

/-- What an instruction that answers a next state did to the trace: nothing, or its plan added its events, and the
backlight flag is still the one it started with. -/
theorem exec_runs {i : Instr} {s t : State} (h : exec i s = .next t) :
    t.trace = s.trace ∨ ∃ r n es,
      runPlan (instrPlan i s) (requestStart i s) = (r, (requestStart i s).afterBus n es) ∧
        t.trace = s.trace ++ es ∧ t.backlightOn = (requestStart i s).backlightOn := by
  cases hq : i.isTransfer with
  | true =>
    obtain ⟨r, n, es, hrun, rfl⟩ := exec_transfer_next hq h
    rw [instrPlan_of_transfer hq, requestStart_of_transfer hq]
    exact .inr ⟨r, n, es, hrun, rfl, rfl⟩
  | false =>
    rcases exec_request_next hq h with ⟨r, -, rfl⟩ | ⟨-, r, n, es, hrun, hran⟩
    · exact .inl rfl
    · obtain ⟨-, -, htrace, -⟩ := requestStart_frame i s
      refine .inr ⟨r, n, es, (instrPlan_of_request hq s).symm ▸ hrun, ?_⟩
      rcases hran with ⟨-, rfl⟩ | ⟨-, v, hcommit, rfl⟩ | ⟨-, -, rfl⟩
      · exact ⟨by simp [htrace], rfl⟩
      · obtain ⟨-, -, hvtrace, -, -, hvbacklight⟩ := requestCommit_frame hcommit
        exact ⟨by simp [hvtrace, htrace], hvbacklight⟩
      · exact ⟨by simp [htrace], rfl⟩

/-- A plan that sends at most one byte through `writeByte`; the list is that byte, with its RS. -/
inductive BytePlan (bl : Bool) : List (Byte × Bool) → List Prim → Prop
  | silent : BytePlan bl [] []
  | probe : BytePlan bl [] [.probe]
  | command (v : Byte) : BytePlan bl [(v, false)] (cmd bl v)
  | data (c : Byte) : BytePlan bl [(c, true)] (data bl c)

/-- Under the invariant the entry-direction requests send one of two bytes (R26, R93). -/
theorem StateSound.entryModeByte {s : State} (hs : StateSound s) (inc : Bool) :
    baseEntryMode ||| withBit (s.mode.getD 0) bitID inc = if inc then 0x06 else 0x04 := by
  have hm : s.mode.getD 0 = 0x00 ∨ s.mode.getD 0 = 0x02 := by
    cases hmode : s.mode with
    | none => exact .inl rfl
    | some m => exact hs.modeLegal m hmode
  rcases hm with hm | hm <;> cases inc <;> rw [hm] <;> decide

/-- A request other than INIT sends at most one byte: under the invariant, the one R93 lists for it. -/
theorem requestPlan_bytePlan {i : Instr} (hi : ∀ e, i ≠ .init e) (s : State) :
    ∃ bytes, BytePlan (requestStart i s).backlightOn bytes (requestPlan i s) ∧
      (StateSound s → bytes = emittedBytes s i) := by
  cases i with
  | init e => exact absurd rfl (hi e)
  | probe => exact ⟨_, .probe, fun _ => rfl⟩
  | writeChar c => exact ⟨_, .data c, fun _ => rfl⟩
  | home | clear | setCursor | displayOn | displayOff | cursorOn | cursorOff | blinkOn | blinkOff | shiftLeft
  | shiftRight | backlightOn | backlightOff => exact ⟨_, .command _, fun _ => rfl⟩
  | leftToRight => exact ⟨_, .command _, fun hs => by rw [hs.entryModeByte true]; rfl⟩
  | rightToLeft => exact ⟨_, .command _, fun hs => by rw [hs.entryModeByte false]; rfl⟩
  | _ => exact ⟨_, .silent, fun _ => rfl⟩

/-- A protocol-engine call sends one byte, but for the two lone nibbles of R96. -/
theorem transferPlan_bytePlan (i : Instr) (s : State) :
    (∃ bytes, BytePlan s.backlightOn bytes (transferPlan i s)) ∨
      (i = .hdFunctionSet8BitNibble ∨ i = .hdFunctionSet4BitNibble) ∧
        ∃ x, transferPlan i s = writeNibble s.backlightOn x .cmd := by
  cases i with
  | hdFunctionSet8BitNibble => exact .inr ⟨.inl rfl, _, rfl⟩
  | hdFunctionSet4BitNibble => exact .inr ⟨.inr rfl, _, rfl⟩
  | hdWriteData c => exact .inl ⟨_, .data c⟩
  | hdClearDisplay | hdReturnHome | hdEntryModeSet | hdDisplayControl | hdCursorDisplayShift | hdFunctionSet
  | hdSetCgramAddress | hdSetDdramAddress => exact .inl ⟨_, .command _⟩
  | _ => exact .inl ⟨_, .silent⟩

/-- The traffic of every instruction: at most one byte, the INIT sequence, or a lone nibble. -/
theorem instrPlan_cases (i : Instr) (s : State) :
    (∃ bytes, BytePlan (requestStart i s).backlightOn bytes (instrPlan i s)) ∨
      instrPlan i s = initPlan (requestStart i s).backlightOn (functionFor s.config) ∨
      (i = .hdFunctionSet8BitNibble ∨ i = .hdFunctionSet4BitNibble) ∧
        ∃ x, instrPlan i s = writeNibble (requestStart i s).backlightOn x .cmd := by
  cases hq : i.isTransfer with
  | true =>
    rw [instrPlan_of_transfer hq, requestStart_of_transfer hq]
    rcases transferPlan_bytePlan i s with hbyte | hnibble
    · exact .inl hbyte
    · exact .inr (.inr hnibble)
  | false =>
    rw [instrPlan_of_request hq]
    by_cases hi : ∃ e, i = .init e
    · obtain ⟨e, rfl⟩ := hi
      exact .inr (.inl rfl)
    · obtain ⟨bytes, hbyte, -⟩ := requestPlan_bytePlan (fun e he => hi ⟨e, he⟩) s
      exact .inl ⟨bytes, hbyte⟩

/-! ### The events of a plan come from its primitives -/

/-- A transaction that went to the device of the configuration (R51). -/
def Event.SentTo (c : Config) : Event → Prop
  | .write bus dev _ _ => bus = c.busIdentifier ∧ dev = c.deviceAddress
  | .probe bus dev _ => bus = c.busIdentifier ∧ dev = c.deviceAddress
  | .delay _ => True

theorem ackedEvents_prim {s : State} {ps : List Prim} :
    ∀ e ∈ ackedEvents s ps, e.prim ∈ ps ∧ e.SentTo s.config := by
  induction ps with
  | nil => nofun
  | cons p ps ih =>
    have htail : ∀ e ∈ ackedEvents s ps, e.prim ∈ p :: ps ∧ e.SentTo s.config :=
      fun e he => ⟨List.mem_cons_of_mem p (ih e he).1, (ih e he).2⟩
    cases p with
    | write b => exact List.forall_mem_cons.2 ⟨⟨List.mem_cons_self, rfl, rfl⟩, htail⟩
    | probe => exact List.forall_mem_cons.2 ⟨⟨List.mem_cons_self, rfl, rfl⟩, htail⟩
    | delay d => exact List.forall_mem_cons.2 ⟨⟨List.mem_cons_self, trivial⟩, htail⟩

/-- The same for a plan that ended at `last`. -/
theorem cutEvents_prim {s : State} {front back : List Prim} {last : Event} (hlast : last.SentTo s.config) :
    ∀ e ∈ ackedEvents s front ++ [last], e.prim ∈ front ++ last.prim :: back ∧ e.SentTo s.config := by
  intro e he
  rcases List.mem_append.1 he with he | he
  · exact ⟨List.mem_append_left _ (ackedEvents_prim e he).1, (ackedEvents_prim e he).2⟩
  · obtain rfl := List.mem_singleton.1 he
    exact ⟨List.mem_append_right _ List.mem_cons_self, hlast⟩

/-- Every event of a plan performed one of its primitives, on the configured device. -/
theorem runPlan_prim {ps : List Prim} {s : State} {r : ResultCode} {n : Nat} {es : List Event}
    (h : runPlan ps s = (r, s.afterBus n es)) : ∀ e ∈ es, e.prim ∈ ps ∧ e.SentTo s.config := by
  rcases runPlan_cases ps s with ⟨-, hrun⟩ | ⟨front, p, back, br, rfl, -, -, -, ⟨b, rfl, hrun⟩ | ⟨rfl, hrun⟩⟩ <;>
    obtain rfl := State.afterBus_events_inj (Prod.mk.inj (h.symm.trans hrun)).2
  · exact ackedEvents_prim
  · exact cutEvents_prim (last := s.wr b br) ⟨rfl, rfl⟩
  · exact cutEvents_prim (last := .probe s.config.busIdentifier s.config.deviceAddress br) ⟨rfl, rfl⟩

/-! ### The payload bytes of a plan -/

/-- Every payload byte of the plan has RW = 0 and the backlight flag in bit 3 (R90). -/
def PayloadsCarry (bl : Bool) (ps : List Prim) : Prop :=
  ∀ b, .write b ∈ ps → b.getLsbD 1 = false ∧ b.getLsbD 3 = bl

theorem payloadsCarry_append {bl : Bool} {ps qs : List Prim} :
    PayloadsCarry bl (ps ++ qs) ↔ PayloadsCarry bl ps ∧ PayloadsCarry bl qs := by
  simp only [PayloadsCarry, List.mem_append, or_imp, forall_and]
  exact and_and_and_comm

theorem payloadsCarry_delay (bl : Bool) (t : Nat) : PayloadsCarry bl [.delay t] := by
  simp [PayloadsCarry]

/-- RW and the backlight bit of the three payload bytes of a nibble transfer (R90, R91). -/
theorem payloadBase_rw_backlight (bl : Bool) (n : Byte) (m : Mode) :
    (payloadBase bl n m).getLsbD 1 = false ∧ (payloadBase bl n m).getLsbD 3 = bl := by
  revert n; cases bl <;> cases m <;> decide +kernel

theorem payloadsCarry_writeNibble (bl : Bool) (n : Byte) (m : Mode) : PayloadsCarry bl (writeNibble bl n m) := by
  intro b hb
  obtain ⟨hrw, hbl⟩ := payloadBase_rw_backlight bl n m
  rw [writeNibble, payloadBase_and_not_enable] at hb
  obtain rfl | rfl : b = payloadBase bl n m ∨ b = payloadBase bl n m ||| enableBit := by
    simpa [or_comm, or_left_comm] using hb
  · exact ⟨hrw, hbl⟩
  · rw [BitVec.getLsbD_or, BitVec.getLsbD_or, hrw, hbl]
    exact ⟨rfl, Bool.or_false bl⟩

theorem payloadsCarry_writeByte (bl : Bool) (v : Byte) (m : Mode) : PayloadsCarry bl (writeByte bl v m) :=
  payloadsCarry_append.2 ⟨payloadsCarry_writeNibble bl _ m, payloadsCarry_writeNibble bl _ m⟩

theorem payloadsCarry_cmd (bl : Bool) (v : Byte) : PayloadsCarry bl (cmd bl v) :=
  payloadsCarry_append.2 ⟨payloadsCarry_writeByte bl v .cmd, payloadsCarry_delay bl _⟩

theorem payloadsCarry_data (bl : Bool) (c : Byte) : PayloadsCarry bl (data bl c) :=
  payloadsCarry_append.2 ⟨payloadsCarry_writeByte bl c .data, payloadsCarry_delay bl _⟩

theorem payloadsCarry_initPlan (bl : Bool) (f : Byte) : PayloadsCarry bl (initPlan bl f) := by
  simp only [initPlan, payloadsCarry_append, payloadsCarry_writeNibble, payloadsCarry_delay, payloadsCarry_cmd,
    and_self]

theorem BytePlan.payloadsCarry {bl : Bool} {bytes : List (Byte × Bool)} {ps : List Prim} (h : BytePlan bl bytes ps) :
    PayloadsCarry bl ps := by
  cases h with
  | silent => nofun
  | probe => simp [PayloadsCarry]
  | command v => exact payloadsCarry_cmd bl v
  | data c => exact payloadsCarry_data bl c

/-- Every payload byte of every instruction carries the backlight flag the instruction starts with. -/
theorem instrPlan_payloadsCarry (i : Instr) (s : State) :
    PayloadsCarry (requestStart i s).backlightOn (instrPlan i s) := by
  rcases instrPlan_cases i s with ⟨bytes, hbyte⟩ | hinit | ⟨-, x, hnibble⟩
  · exact hbyte.payloadsCarry
  · rw [hinit]
    exact payloadsCarry_initPlan _ _
  · rw [hnibble]
    exact payloadsCarry_writeNibble _ _ _

/-- The events of a plan whose payload bytes carry `bl` are sound, and their payload bytes carry `bl`. -/
theorem PayloadsCarry.traceSound {bl : Bool} {ps : List Prim} (hp : PayloadsCarry bl ps) {s : State} {r : ResultCode}
    {n : Nat} {es : List Event} (h : runPlan ps s = (r, s.afterBus n es)) :
    TraceSound s.config es ∧ ∀ bus dev b r, Event.write bus dev b r ∈ es → b.getLsbD 3 = bl := by
  refine ⟨⟨fun bus dev b r he => ?_, fun bus dev r he => (runPlan_prim h _ he).2⟩, fun bus dev b r he => ?_⟩
  · obtain ⟨hb, hbus, hdev⟩ := runPlan_prim h _ he
    exact ⟨hbus, hdev, (hp b hb).1⟩
  · exact (hp b (runPlan_prim h _ he).1).2

/-! ### A controller in step, through one plan -/

/-- The controller that is between two bytes, with EN low, and has taken `bytes`. -/
def Wire.readyWith (bytes : List (Byte × Bool)) : Wire where
  en := some false
  phase := .whole
  bytes := bytes
  inStep := true

theorem Wire.readyWith_ready (bytes : List (Byte × Bool)) : (Wire.readyWith bytes).Ready := ⟨rfl, rfl, rfl⟩

theorem Wire.Ready.eq_readyWith {w : Wire} (h : w.Ready) : w = Wire.readyWith w.bytes := by
  obtain ⟨hen, hphase, hin⟩ := h
  cases w
  simp_all [Wire.readyWith]

/-- Only INIT's wait after its step 2 makes a controller known to be in step again (R123, R270). -/
theorem Wire.inStep_of_after {w : Wire} {e : Event} (he : e.prim ≠ .delay tReset4) (h : (w.after e).inStep = true) :
    w.inStep = true := by
  cases e with
  | write bus dev b r =>
    cases r with
    | ack =>
      change (w.acked b).inStep = true at h
      unfold Wire.acked at h
      split at h
      · exact h
      · split at h <;> simpa using h
    | nack => exact nomatch (Wire.failed_inStep w b).symm.trans h
    | timeout => exact nomatch (Wire.failed_inStep w b).symm.trans h
    | busError => exact nomatch (Wire.failed_inStep w b).symm.trans h
  | probe bus dev r => exact h
  | delay t =>
    rwa [Wire.after_delay w fun ht => he (congrArg Prim.delay ht)] at h

theorem Wire.inStep_of_foldl {es : List Event} (hes : ∀ e ∈ es, e.prim ≠ .delay tReset4) {w : Wire}
    (h : (es.foldl Wire.after w).inStep = true) : w.inStep = true := by
  induction es generalizing w with
  | nil => exact h
  | cons e es ih =>
    obtain ⟨he, hes⟩ := List.forall_mem_cons.1 hes
    exact Wire.inStep_of_after he (ih hes h)

/-- If a controller is in step after a plan of writes and waits, no write failed: the failing one would be the last
event. -/
theorem runPlan_events_of_inStep {ps : List Prim} (hprobe : .probe ∉ ps) {s : State} {r : ResultCode} {n : Nat}
    {es : List Event} (h : runPlan ps s = (r, s.afterBus n es)) {w : Wire}
    (hin : (es.foldl Wire.after w).inStep = true) : es = ackedEvents s ps := by
  rcases runPlan_cases ps s with ⟨-, hrun⟩ | ⟨front, p, back, br, rfl, -, -, hbr, ⟨b, rfl, hrun⟩ | ⟨rfl, -⟩⟩
  · exact State.afterBus_events_inj (Prod.mk.inj (h.symm.trans hrun)).2
  · obtain rfl := State.afterBus_events_inj (Prod.mk.inj (h.symm.trans hrun)).2
    simp [Wire.after_wr_failed _ s b hbr] at hin
  · exact absurd (List.mem_append_right _ List.mem_cons_self) hprobe

/-- The settle time of a command byte is not INIT's wait (R119, R280). -/
theorem settle_ne_tReset4 (v : Byte) : settle v .cmd ≠ tReset4 := by
  unfold settle
  split_ifs <;> decide

/-- The two nibbles of a byte, high half first, are the byte (R94). -/
theorem nibbles_append : ∀ v : Byte, v.extractLsb' 4 4 ++ v.extractLsb' 0 4 = v := by decide +kernel

/-- A ready controller takes an acknowledged command byte, and is ready again. -/
theorem Wire.foldl_cmd_ready (s : State) (bl : Bool) (v : Byte) (bytes : List (Byte × Bool)) :
    (ackedEvents s (cmd bl v)).foldl Wire.after (readyWith bytes) = readyWith (bytes ++ [(v, false)]) := by
  rw [ackedEvents_cmd, Wire.foldl_cmdEvents s bl v _ rfl (settle_ne_tReset4 v)]
  simp [readyWith, Wire.latch, nibbles_append]

/-- A ready controller takes an acknowledged data byte, and is ready again. -/
theorem Wire.foldl_data_ready (s : State) (bl : Bool) (c : Byte) (bytes : List (Byte × Bool)) :
    (ackedEvents s (data bl c)).foldl Wire.after (readyWith bytes) = readyWith (bytes ++ [(c, true)]) := by
  rw [ackedEvents_data, Wire.foldl_dataEvents s bl c _ rfl]
  simp [readyWith, Wire.latch, nibbles_append]

theorem BytePlan.not_delay_tReset4 {bl : Bool} {bytes : List (Byte × Bool)} {ps : List Prim}
    (h : BytePlan bl bytes ps) : .delay tReset4 ∉ ps := by
  cases h with
  | silent => nofun
  | probe => nofun
  | command v => simpa [cmd, writeByte, writeNibble, tPre, tEn, tReset4, eq_comm] using settle_ne_tReset4 v
  | data c => simp [Machine.data, writeByte, writeNibble, tPre, tEn, tStd, tReset4]

/-- A ready controller that is in step after a plan of at most one byte has taken that byte, and is ready again. -/
theorem BytePlan.foldl_ready {bl : Bool} {bytes : List (Byte × Bool)} {ps : List Prim} (hp : BytePlan bl bytes ps)
    {s : State} {r : ResultCode} {n : Nat} {es : List Event} (h : runPlan ps s = (r, s.afterBus n es))
    {taken : List (Byte × Bool)} (hin : (es.foldl Wire.after (Wire.readyWith taken)).inStep = true) :
    es.foldl Wire.after (Wire.readyWith taken) = Wire.readyWith (taken ++ bytes) := by
  cases hp with
  | silent =>
    obtain rfl := runPlan_events_of_inStep (by simp) h hin
    simp [ackedEvents]
  | probe =>
    have hrun : (runPlan [.probe] s).2 = s.afterBus 1 [.probe s.config.busIdentifier s.config.deviceAddress
        (s.responseAt 0)] := by
      rw [runPlan_cons, runPrim_probe]
      split <;> rfl
    obtain rfl : es = _ := State.afterBus_events_inj ((congrArg Prod.snd h).symm.trans hrun)
    simp [Wire.after]
  | command v =>
    rw [runPlan_events_of_inStep (by simp [cmd, writeByte, writeNibble]) h hin, Wire.foldl_cmd_ready]
  | data c =>
    rw [runPlan_events_of_inStep (by simp [Machine.data, writeByte, writeNibble]) h hin, Wire.foldl_data_ready]

/-- The same from any controller that is ready whenever it is known to be in step. -/
theorem BytePlan.keeps_ready {bl : Bool} {bytes : List (Byte × Bool)} {ps : List Prim} (hp : BytePlan bl bytes ps)
    {s : State} {r : ResultCode} {n : Nat} {es : List Event} (h : runPlan ps s = (r, s.afterBus n es)) {w : Wire}
    (hw : w.inStep = true → w.Ready) (hin : (es.foldl Wire.after w).inStep = true) :
    (es.foldl Wire.after w).Ready := by
  have hes : ∀ e ∈ es, e.prim ≠ .delay tReset4 :=
    fun e he heq => hp.not_delay_tReset4 (heq ▸ (runPlan_prim h e he).1)
  have hready := hw (Wire.inStep_of_foldl hes hin)
  rw [hready.eq_readyWith] at hin ⊢
  rw [hp.foldl_ready h hin]
  exact Wire.readyWith_ready _

/-! ### A controller through INIT -/

/-- The bytes INIT sends after its step 2, for the function register `f` (R93, R142). -/
def initBytes (f : Byte) : List (Byte × Bool) :=
  [(baseFunctionSet ||| f, false), (0x0C, false), (0x01, false), (0x06, false), (0x02, false)]

theorem Wire.foldl_writeNibble_en (s : State) (bl : Bool) (n : Byte) (w : Wire) :
    ((ackedEvents s (writeNibble bl n .cmd)).foldl Wire.after w).en = some false := by
  rw [ackedEvents_writeNibble]
  exact Wire.foldl_nib_en s _ n bl .cmd w rfl

/-- INIT's wait after its step 2 makes any controller with EN low ready (R123). -/
theorem Wire.after_tReset4 {w : Wire} (hen : w.en = some false) : w.after (.delay tReset4) = readyWith [] := by
  cases w
  simp_all [Wire.after, Wire.entered4Bit, readyWith]

/-- Whatever a controller held before, after an acknowledged INIT it is ready and has taken INIT's five bytes. -/
theorem Wire.foldl_initPlan (s : State) (bl : Bool) (f : Byte) (w : Wire) :
    (ackedEvents s (initPlan bl f)).foldl Wire.after w = readyWith (initBytes f) := by
  simp only [initPlan, ackedEvents_append, List.foldl_append, ackedEvents, List.foldl_cons, List.foldl_nil]
  rw [Wire.after_tReset4 (Wire.foldl_writeNibble_en s bl 0x20 _)]
  simp only [Wire.foldl_cmd_ready]
  rfl

theorem initPlan_events_foldl {bl : Bool} {f : Byte} {s : State} {r : ResultCode} {n : Nat} {es : List Event}
    (h : runPlan (initPlan bl f) s = (r, s.afterBus n es)) {w : Wire}
    (hin : (es.foldl Wire.after w).inStep = true) : es.foldl Wire.after w = Wire.readyWith (initBytes f) := by
  rw [runPlan_events_of_inStep (by simp [initPlan, cmd, writeByte, writeNibble]) h hin, Wire.foldl_initPlan]

/-! ### No command byte sets the CGRAM address -/

/-- A byte with RS is no Set-CGRAM-Address: it is data, or its bits 7:6 are not 01 (R92). -/
def NotSetCgram (p : Byte × Bool) : Prop := p.2 = false → p.1 &&& 0xC0 ≠ 0x40

theorem setDdram_notSetCgram : ∀ a : Byte, NotSetCgram (0x80 ||| a, false) := by
  simp only [NotSetCgram, forall_const]
  decide +kernel

/-- Under the invariant a Display-Control byte has bits 7:6 clear, whichever bit is set or cleared (R25). -/
theorem StateSound.displayControl_notSetCgram {s : State} (hs : StateSound s) {bit : Byte} (on : Bool)
    (hbit : bit &&& 0xF8 = 0) : NotSetCgram (0x08 ||| withBit (s.control.getD 0) bit on, false) := by
  have hcontrol : s.control.getD 0 &&& 0xF8 = 0 := by
    cases hc : s.control with
    | none => rfl
    | some v => exact hs.controlLegal v hc
  have hbyte : ∀ v : Byte, v &&& 0xF8 = 0 → (0x08 ||| v) &&& 0xC0 ≠ 0x40 := by decide +kernel
  exact fun _ => hbyte _ (withBit_control_legal on hcontrol hbit)

/-- Under the invariant no byte of R93's list is a Set-CGRAM-Address. -/
theorem StateSound.emittedBytes_notSetCgram {s : State} (hs : StateSound s) (i : Instr) :
    ∀ p ∈ emittedBytes s i, NotSetCgram p := by
  cases i with
  | writeChar c => exact List.forall_mem_singleton.2 nofun
  | home | clear | shiftLeft | shiftRight | leftToRight | rightToLeft =>
    exact List.forall_mem_singleton.2 fun _ => by decide
  | setCursor | backlightOn | backlightOff => exact List.forall_mem_singleton.2 (setDdram_notSetCgram _)
  | displayOn => exact List.forall_mem_singleton.2 (hs.displayControl_notSetCgram (bit := bitD) true rfl)
  | displayOff => exact List.forall_mem_singleton.2 (hs.displayControl_notSetCgram (bit := bitD) false rfl)
  | cursorOn => exact List.forall_mem_singleton.2 (hs.displayControl_notSetCgram (bit := bitC) true rfl)
  | cursorOff => exact List.forall_mem_singleton.2 (hs.displayControl_notSetCgram (bit := bitC) false rfl)
  | blinkOn => exact List.forall_mem_singleton.2 (hs.displayControl_notSetCgram (bit := bitB) true rfl)
  | blinkOff => exact List.forall_mem_singleton.2 (hs.displayControl_notSetCgram (bit := bitB) false rfl)
  | _ => nofun

/-- No byte of INIT is a Set-CGRAM-Address, for either value of the function register. -/
theorem initBytes_notSetCgram (c : Config) : ∀ p ∈ initBytes (functionFor c), NotSetCgram p := by
  unfold functionFor NotSetCgram
  cases c.rows == 2 || c.rows == 4 <;> decide +kernel

/-- A ready controller that is in step after a request has taken no byte, INIT's bytes, or the byte R93 lists. -/
theorem exec_request_bytes {i : Instr} {s t : State} (hs : StateSound s) (hq : i.isTransfer = false)
    (h : exec i s = .next t) {es : List Event} (htrace : t.trace = s.trace ++ es)
    (hin : (es.foldl Wire.after (Wire.readyWith [])).inStep = true) :
    ∃ bytes, es.foldl Wire.after (Wire.readyWith []) = Wire.readyWith bytes ∧
      (bytes = [] ∨ bytes = initBytes (functionFor s.config) ∨ bytes = emittedBytes s i) := by
  rcases exec_runs h with hsame | ⟨r, n, es', hrun, htrace', -⟩
  · obtain rfl : es = [] := by simpa [hsame] using htrace
    exact ⟨[], rfl, .inl rfl⟩
  · obtain rfl : es = es' := List.append_cancel_left (htrace.symm.trans htrace')
    rw [instrPlan_of_request hq] at hrun
    by_cases hi : ∃ e, i = .init e
    · obtain ⟨e, rfl⟩ := hi
      exact ⟨_, initPlan_events_foldl hrun hin, .inr (.inl rfl)⟩
    · obtain ⟨bytes, hbyte, hemitted⟩ := requestPlan_bytePlan (fun e he => hi ⟨e, he⟩) s
      exact ⟨bytes, hbyte.foldl_ready hrun hin, .inr (.inr (hemitted hs))⟩

/-- Every instruction but the two lone nibbles keeps the controller ready whenever it is known to be in step. -/
theorem exec_wireSound {i : Instr} {s t : State} (h8 : i ≠ .hdFunctionSet8BitNibble)
    (h4 : i ≠ .hdFunctionSet4BitNibble) (hw : WireSound s) (h : exec i s = .next t) : WireSound t := by
  unfold WireSound
  rcases exec_runs h with hsame | ⟨r, n, es, hrun, htrace, -⟩
  · rw [hsame]
    exact hw
  · rw [htrace, wireAfter_append]
    intro hin
    rcases instrPlan_cases i s with ⟨bytes, hbyte⟩ | hinit | ⟨hnibble, -⟩
    · exact hbyte.keeps_ready hrun hw hin
    · rw [hinit] at hrun
      rw [initPlan_events_foldl hrun hin]
      exact Wire.readyWith_ready _
    · exact absurd hnibble (not_or.2 ⟨h8, h4⟩)

end Sys2Proof.Machine

open Sys2Proof Sys2Proof.Machine

/-! ### The statements -/

/-- Settles O49: every event performs a primitive of the instruction's plan, whose payload bytes carry the flag. -/
theorem everyPayloadCarriesTheBacklightAndNoRead : Obligations.EveryPayloadCarriesTheBacklightAndNoRead := by
  intro i s t h
  rcases exec_runs h with hsame | ⟨r, n, es, hrun, htrace, hbacklight⟩
  · exact ⟨[], by simp [hsame], ⟨nofun, nofun⟩, nofun⟩
  · obtain ⟨hsound, hflag⟩ := (instrPlan_payloadsCarry i s).traceSound hrun
    obtain ⟨hconfig, -⟩ := requestStart_frame i s
    rw [hconfig] at hsound
    rw [hbacklight]
    exact ⟨es, htrace, hsound, hflag⟩

/-- Settles O53: a controller in step takes only the bytes of R93, and none of them is a Set-CGRAM-Address. -/
theorem noRequestEmitsSetCgramAddress : Obligations.NoRequestEmitsSetCgramAddress := by
  intro i s t es w hs hq h htrace hready hempty hin
  have hw : w = Wire.readyWith [] := hempty ▸ hready.eq_readyWith
  rw [hw] at hin ⊢
  obtain ⟨bytes, htaken, hbytes⟩ := exec_request_bytes hs hq h htrace hin
  rw [htaken]
  rcases hbytes with rfl | rfl | rfl
  · nofun
  · exact initBytes_notSetCgram s.config
  · exact hs.emittedBytes_notSetCgram i

/-- Settles O56: nothing is in step at power-up; afterwards a failed write ends an instruction out of step, and a byte
or INIT that goes through leaves the controller ready. -/
theorem everyRequestKeepsTheControllerInStep : Obligations.EveryRequestKeepsTheControllerInStep := by
  constructor
  · intro c s h
    obtain ⟨-, rfl⟩ := State.construct?_eq_some.1 h
    exact nofun
  · intro i s t h8 h4 hw h
    exact exec_wireSound h8 h4 hw h

end

section
/-! PROOFS. The statements on the encodings (spec/30_encoding.md): request words and the opcode map, instruction bytes,
the bytes and nibbles that the controller receives from a request, the result codes, WRITE_STRING and the assembler. -/

namespace Sys2Proof.Machine

/-! ### The two fields of a request word (R80) -/

theorem opcode_requestWord (op : BitVec 5) (x : BitVec 11) : opcode (requestWord op x) = op :=
  BitVec.extractLsb'_append_eq_left

/-- The eleven operand bits of a word (R80). -/
def operandBits (w : ReqWord) : BitVec 11 := w.extractLsb' 0 11

theorem operandBits_requestWord (op : BitVec 5) (x : BitVec 11) : operandBits (requestWord op x) = x :=
  BitVec.extractLsb'_append_eq_right

theorem requestWord_opcode_operandBits (w : ReqWord) : requestWord (opcode w) (operandBits w) = w :=
  (BitVec.extractLsb'_append_extractLsb'_eq_extractLsb' rfl).trans BitVec.extractLsb'_eq_self

theorem requestWord_inj {op op' : BitVec 5} {x x' : BitVec 11} :
    requestWord op x = requestWord op' x' ↔ op = op' ∧ x = x' := by
  constructor
  · intro h
    exact ⟨by simpa [opcode_requestWord] using congrArg opcode h,
      by simpa [operandBits_requestWord] using congrArg operandBits h⟩
  · rintro ⟨rfl, rfl⟩
    rfl

theorem requestWord_and (op op' : BitVec 5) (x x' : BitVec 11) :
    requestWord op x &&& requestWord op' x' = requestWord (op &&& op') (x &&& x') :=
  BitVec.and_append

/-! ### Reserved words and the opcode map (R82, R84) -/

/-- The operand bits a format marks `0`, as a mask of the eleven operand bits (R81). -/
def Format.operandMask (f : Format) : BitVec 11 := operandBits f.reservedBits

theorem Format.reservedBits_eq (f : Format) : f.reservedBits = requestWord 0 f.operandMask := by
  cases f <;> rfl

/-- A word is assigned exactly when its opcode has a format and the bits that the format marks `0` are 0 (R84). -/
theorem reservedWord_requestWord_eq_false {op : BitVec 5} {x : BitVec 11} :
    reservedWord (requestWord op x) = false ↔ ∃ f, formatOf op = some f ∧ x &&& f.operandMask = 0 := by
  unfold reservedWord
  rw [opcode_requestWord]
  cases formatOf op with
  | none => simp
  | some f =>
    have hzero : (0 : ReqWord) = requestWord 0 0 := rfl
    simp [Format.reservedBits_eq, requestWord_and, hzero, requestWord_inj]

/-- The row of R82 for an opcode of format `f`: its match and its mask. -/
def mapRow (op : BitVec 5) (f : Format) : ReqWord × ReqWord :=
  (requestWord op 0, requestWord (BitVec.allOnes 5) f.operandMask)

/-- The opcode map of R82 has, in opcode order, one row for each opcode with a format. -/
theorem requestMap_eq : requestMap =
    (List.finRange 32).filterMap fun k => (formatOf ⟨k⟩).map (mapRow ⟨k⟩) := by
  decide +kernel

/-- The rows of the opcode map are the opcodes with a format. -/
theorem mem_requestMap {row : ReqWord × ReqWord} :
    row ∈ requestMap ↔ ∃ op f, formatOf op = some f ∧ mapRow op f = row := by
  rw [requestMap_eq]
  simp only [List.mem_filterMap, List.mem_finRange, true_and, Option.map_eq_some_iff]
  exact ⟨fun ⟨k, h⟩ => ⟨⟨k⟩, h⟩, fun ⟨op, h⟩ => ⟨op.toFin, h⟩⟩

/-- A word matches a row of R82 when it has the row's opcode and the bits its format marks `0` are 0. -/
theorem and_mapRow_eq_iff {op op' : BitVec 5} {x : BitVec 11} {f : Format} :
    requestWord op' x &&& (mapRow op f).2 = (mapRow op f).1 ↔ op' = op ∧ x &&& f.operandMask = 0 := by
  rw [mapRow, requestWord_and, BitVec.and_allOnes, requestWord_inj]

/-- The reserved words are those that match no row of the opcode map (R84). -/
theorem reservedWord_iff {w : ReqWord} : reservedWord w = true ↔ ∀ row ∈ requestMap, w &&& row.2 ≠ row.1 := by
  rw [← Bool.not_eq_false, ← requestWord_opcode_operandBits w, reservedWord_requestWord_eq_false, not_exists]
  constructor
  · intro hno row hrow hmatch
    obtain ⟨op, f, hf, rfl⟩ := mem_requestMap.1 hrow
    obtain ⟨rfl, hx⟩ := and_mapRow_eq_iff.1 hmatch
    exact hno f ⟨hf, hx⟩
  · rintro hno f ⟨hf, hx⟩
    exact hno _ (mem_requestMap.2 ⟨_, f, hf, rfl⟩) (and_mapRow_eq_iff.2 ⟨rfl, hx⟩)

theorem decodeRequest_of_reserved {w : ReqWord} (h : reservedWord w = true) : decodeRequest w = .reserved w :=
  if_pos h

/-! ### Request words with an operand decode to their request (R82, R83) -/

theorem extractLsb'_requestWord (op : BitVec 5) (x : BitVec 11) {start len : Nat} (h : start + len ≤ 11) :
    (requestWord op x).extractLsb' start len = x.extractLsb' start len :=
  BitVec.extractLsb'_append_eq_of_add_le h

theorem operandC_requestWord (op : BitVec 5) (c : Byte) : operandC (requestWord op (0#3 ++ c)) = c :=
  (extractLsb'_requestWord op _ (by decide)).trans BitVec.extractLsb'_append_eq_right

theorem operandCol_requestWord (op : BitVec 5) (col : BitVec 7) (row : BitVec 2) :
    operandCol (requestWord op (0#2 ++ row ++ col)) = col :=
  (extractLsb'_requestWord op _ (by decide)).trans BitVec.extractLsb'_append_eq_right

theorem operandRow_requestWord (op : BitVec 5) (col : BitVec 7) (row : BitVec 2) :
    operandRow (requestWord op (0#2 ++ row ++ col)) = row :=
  (extractLsb'_requestWord op _ (by decide)).trans
    ((BitVec.extractLsb'_append_eq_of_le (by decide)).trans BitVec.extractLsb'_append_eq_right)

theorem operandSlot_requestWord (op : BitVec 5) (slot : BitVec 3) :
    operandSlot (requestWord op (0#8 ++ slot)) = slot :=
  (extractLsb'_requestWord op _ (by decide)).trans BitVec.extractLsb'_append_eq_right

/-- Operand bits whose high `k` bits are 0 are disjoint from a mask of those `k` bits. -/
theorem zero_append_and_mask {k n : Nat} (y : BitVec n) : (0#k ++ y) &&& (BitVec.allOnes k ++ 0#n) = 0 := by
  rw [BitVec.and_append, BitVec.zero_and, BitVec.and_zero, BitVec.zero_append_zero]
  rfl

/-- Operand bits disjoint from a mask of their high `k` bits have these 0. -/
theorem eq_zero_append_of_and_mask {k n : Nat} {x : BitVec (k + n)} (h : x &&& (BitVec.allOnes k ++ 0#n) = 0) :
    x = 0#k ++ x.extractLsb' 0 n := by
  have hsplit : x.extractLsb' n k ++ x.extractLsb' 0 n = x := by
    rw [BitVec.extractLsb'_append_extractLsb'_eq_extractLsb' (Nat.zero_add n).symm]
    exact BitVec.extractLsb'_eq_self
  rw [← hsplit, BitVec.and_append, BitVec.and_allOnes] at h
  have hhigh : x.extractLsb' n k = 0#k := by
    simpa [BitVec.extractLsb'_append_eq_left] using congrArg (BitVec.extractLsb' n k) h
  rw [← hhigh, hsplit]

theorem decodeRequest_init (e : Bool) : decodeRequest (requestWord 0x00 (0#10 ++ BitVec.ofBool e)) = .init e := by
  cases e <;> rfl

theorem decodeRequest_writeChar (c : Byte) : decodeRequest (requestWord 0x02 (0#3 ++ c)) = .writeChar c := by
  have hassigned : reservedWord (requestWord 0x02 (0#3 ++ c)) = false :=
    reservedWord_requestWord_eq_false.2 ⟨.c, rfl, zero_append_and_mask c⟩
  rw [decodeRequest, hassigned, opcode_requestWord, operandC_requestWord]
  rfl

theorem decodeRequest_setCursor (col : BitVec 7) (row : BitVec 2) :
    decodeRequest (requestWord 0x04 (0#2 ++ row ++ col)) = .setCursor col row := by
  have hmask : (0#2 ++ row ++ col) &&& Format.p.operandMask = 0 := by
    have hp : Format.p.operandMask = (BitVec.allOnes 2 ++ 0#2) ++ 0#7 := rfl
    rw [hp, BitVec.and_append, zero_append_and_mask, BitVec.and_zero]
    rfl
  have hassigned := reservedWord_requestWord_eq_false.2 ⟨.p, (rfl : formatOf 0x04 = _), hmask⟩
  rw [decodeRequest, hassigned, opcode_requestWord, operandCol_requestWord, operandRow_requestWord]
  rfl

theorem decodeRequest_writeCustomGlyph (slot : BitVec 3) :
    decodeRequest (requestWord 0x12 (0#8 ++ slot)) = .writeCustomGlyph slot := by
  have hassigned : reservedWord (requestWord 0x12 (0#8 ++ slot)) = false :=
    reservedWord_requestWord_eq_false.2 ⟨.g, rfl, zero_append_and_mask slot⟩
  rw [decodeRequest, hassigned, opcode_requestWord, operandSlot_requestWord]
  rfl

/-! ### Instruction bytes decode to their instruction (R92) -/

theorem decodeCommandByte_setDdramAddress (a : BitVec 7) :
    decodeCommandByte (0b1#1 ++ a) = .ok (.hdSetDdramAddress a) := by
  have hbit : (0b1#1 ++ a).getLsbD 7 = true := BitVec.getLsbD_append.trans rfl
  have haddress : (0b1#1 ++ a).extractLsb' 0 7 = a := BitVec.extractLsb'_append_eq_right
  rw [decodeCommandByte, if_pos hbit, haddress]

theorem decodeCommandByte_setCgramAddress (a : BitVec 6) :
    decodeCommandByte (0b01#2 ++ a) = .ok (.hdSetCgramAddress a) := by
  have hbit7 : (0b01#2 ++ a).getLsbD 7 = false := BitVec.getLsbD_append.trans rfl
  have hbit6 : (0b01#2 ++ a).getLsbD 6 = true := BitVec.getLsbD_append.trans rfl
  have haddress : (0b01#2 ++ a).extractLsb' 0 6 = a := BitVec.extractLsb'_append_eq_right
  rw [decodeCommandByte, hbit7, hbit6, haddress]
  rfl

/-! ### Decode and encode -/

/-- Decoding the encoding of a well-formed instruction gives it back. -/
theorem decode_encode {i : Instr} (h : i.wf = true) : decode (encode i) = .ok i := by
  cases i with
  | init e => exact congrArg Except.ok (decodeRequest_init e)
  | writeChar c => exact congrArg Except.ok (decodeRequest_writeChar c)
  | setCursor col row => exact congrArg Except.ok (decodeRequest_setCursor col row)
  | writeCustomGlyph slot => exact congrArg Except.ok (decodeRequest_writeCustomGlyph slot)
  | reserved w => exact congrArg Except.ok (decodeRequest_of_reserved h)
  | hdEntryModeSet i s => cases i <;> cases s <;> rfl
  | hdDisplayControl d c b => cases d <;> cases c <;> cases b <;> rfl
  | hdCursorDisplayShift m r => cases m <;> cases r <;> rfl
  | hdFunctionSet l n f => cases l <;> cases n <;> cases f <;> rfl
  | hdSetCgramAddress a => exact decodeCommandByte_setCgramAddress a
  | hdSetDdramAddress a => exact decodeCommandByte_setDdramAddress a
  | _ => rfl

/-- A word of an opcode without operand is the encoding of its request. -/
theorem encode_decodeRequest_plain : ∀ op, formatOf op = some .n →
    encode (decodeRequest (requestWord op 0)) = .request (requestWord op 0) ∧
      (decodeRequest (requestWord op 0)).wf = true := by decide +kernel

/-- The operand bits of a SET_CURSOR word are a row above a column (R81, R83). -/
theorem exists_cursor_operands {x : BitVec 11} (h : x &&& Format.p.operandMask = 0) :
    ∃ (row : BitVec 2) (col : BitVec 7), x = 0#2 ++ row ++ col := by
  have hsplit : x.extractLsb' 7 4 ++ x.extractLsb' 0 7 = x :=
    (BitVec.extractLsb'_append_extractLsb'_eq_extractLsb' rfl).trans BitVec.extractLsb'_eq_self
  have hp : Format.p.operandMask = (BitVec.allOnes 2 ++ 0#2) ++ 0#7 := rfl
  have hhigh : x.extractLsb' 7 4 &&& (BitVec.allOnes 2 ++ 0#2) = 0 := by
    rw [← hsplit, hp, BitVec.and_append] at h
    exact BitVec.extractLsb'_append_eq_left.symm.trans (congrArg (BitVec.extractLsb' 7 4) h)
  refine ⟨(x.extractLsb' 7 4).extractLsb' 0 2, x.extractLsb' 0 7, ?_⟩
  rw [← eq_zero_append_of_and_mask (k := 2) (n := 2) hhigh, hsplit]

/-- Every assigned word is the encoding of a well-formed instruction (R85). -/
theorem exists_encode_of_assigned {op : BitVec 5} {f : Format} (hf : formatOf op = some f) {x : BitVec 11}
    (hx : x &&& f.operandMask = 0) : ∃ i, encode i = .request (requestWord op x) ∧ i.wf = true := by
  cases f with
  | n =>
    obtain rfl : x = 0 := BitVec.and_allOnes.symm.trans hx
    exact ⟨_, encode_decodeRequest_plain op hf⟩
  | c =>
    have hop : ∀ op, formatOf op = some .c → op = 0x02 := by decide +kernel
    rw [hop op hf, eq_zero_append_of_and_mask (k := 3) (n := 8) hx]
    exact ⟨.writeChar _, rfl, rfl⟩
  | p =>
    have hop : ∀ op, formatOf op = some .p → op = 0x04 := by decide +kernel
    obtain ⟨row, col, rfl⟩ := exists_cursor_operands hx
    rw [hop op hf]
    exact ⟨.setCursor col row, rfl, rfl⟩
  | i =>
    have hop : ∀ op, formatOf op = some .i → op = 0x00 := by decide +kernel
    have hbit : ∀ b : BitVec 1, BitVec.ofBool (b.getLsbD 0) = b := by decide
    rw [hop op hf, eq_zero_append_of_and_mask (k := 10) (n := 1) hx]
    exact ⟨.init _, congrArg (fun e => Command.request (requestWord 0x00 (0#10 ++ e))) (hbit _), rfl⟩
  | g =>
    have hop : ∀ op, formatOf op = some .g → op = 0x12 := by decide +kernel
    rw [hop op hf, eq_zero_append_of_and_mask (k := 8) (n := 3) hx]
    exact ⟨.writeCustomGlyph _, rfl, rfl⟩

/-- Every word is the encoding of a well-formed instruction, which is `reserved` exactly for a reserved word. -/
theorem exists_encode_eq (w : ReqWord) :
    ∃ i, encode i = .request w ∧ i.wf = true ∧ (i = .reserved w ↔ reservedWord w = true) := by
  cases hw : reservedWord w with
  | true => exact ⟨.reserved w, rfl, hw, by simp⟩
  | false =>
    have hfields := hw
    rw [← requestWord_opcode_operandBits w, reservedWord_requestWord_eq_false] at hfields
    obtain ⟨f, hf, hx⟩ := hfields
    obtain ⟨i, hi, hwf⟩ := exists_encode_of_assigned hf hx
    rw [requestWord_opcode_operandBits] at hi
    refine ⟨i, hi, hwf, ?_⟩
    have hne : i ≠ .reserved w := by
      rintro rfl
      exact nomatch hw.symm.trans hwf
    simp [hne]

/-! ### What the waits of a plan add up to (R281) -/

theorem minDuration_writeNibble (s : State) (bl : Bool) (n : Byte) (m : Mode) :
    minDuration (ackedEvents s (writeNibble bl n m)) = 1001 := by
  rw [ackedEvents_writeNibble, minDuration_nib]

theorem minDuration_cmd (s : State) (bl : Bool) (v : Byte) :
    minDuration (ackedEvents s (cmd bl v)) = 2002 + settle v .cmd := by
  simp only [cmd, writeByte, ackedEvents_append, minDuration_append, minDuration_writeNibble]
  rfl

theorem minDuration_data (s : State) (bl : Bool) (c : Byte) : minDuration (ackedEvents s (data bl c)) = 2052 := by
  simp only [data, writeByte, ackedEvents_append, minDuration_append, minDuration_writeNibble]
  rfl

/-- A command byte with a bit above bit 1 is neither Home nor Clear, so it settles for 50 µs (R119). -/
theorem settle_of_high_bit {v : Byte} {k : Nat} (h : v.getLsbD k = true) (hk : 2 ≤ k) : settle v .cmd = 50 := by
  have hlow : ∀ a : Byte, a.toNat < 2 ^ 2 → v ≠ a := by
    rintro a ha rfl
    rw [BitVec.getLsbD, Nat.testBit_lt_two_pow (ha.trans_le (Nat.pow_le_pow_right (by decide) hk))] at h
    cases h
  rw [settle, if_neg (hlow baseHome (by decide)), if_neg (hlow baseClear (by decide))]
  rfl

theorem settle_setDdramByte (x : BitVec 7) (y : BitVec 2) : settle (setDdramByte x y) .cmd = 50 :=
  settle_of_high_bit (k := 7) (BitVec.getLsbD_or.trans (Bool.true_or _)) (by decide)

theorem settle_displayControl (v : Byte) : settle (baseDisplayControl ||| v) .cmd = 50 :=
  settle_of_high_bit (k := 3) (BitVec.getLsbD_or.trans (Bool.true_or _)) (by decide)

theorem settle_entryMode (v : Byte) : settle (baseEntryMode ||| v) .cmd = 50 :=
  settle_of_high_bit (k := 2) (BitVec.getLsbD_or.trans (Bool.true_or _)) (by decide)

theorem settle_functionSet (v : Byte) : settle (baseFunctionSet ||| v) .cmd = 50 :=
  settle_of_high_bit (k := 5) (BitVec.getLsbD_or.trans (Bool.true_or _)) (by decide)

theorem minDuration_cmd_of_settle {v : Byte} {t : Nat} (h : settle v .cmd = t) (s : State) (bl : Bool) :
    minDuration (ackedEvents s (cmd bl v)) = 2002 + t :=
  h ▸ minDuration_cmd s bl v

/-- What the waits of a request that needs INIT add up to when it succeeds (R281). -/
theorem minDuration_requestPlan {i : Instr} (hn : needsInit i = true) (s : State) :
    minDuration (ackedEvents s (requestPlan i s)) = requestDuration i := by
  cases i with
  | probe => rfl
  | writeChar c => exact minDuration_data s _ c
  | home | clear | shiftLeft | shiftRight => exact minDuration_cmd_of_settle rfl s _
  | setCursor | backlightOn | backlightOff => exact minDuration_cmd_of_settle (settle_setDdramByte _ _) s _
  | displayOn | displayOff | cursorOn | cursorOff | blinkOn | blinkOff =>
    exact minDuration_cmd_of_settle (settle_displayControl _) s _
  | leftToRight | rightToLeft => exact minDuration_cmd_of_settle (settle_entryMode _) s _
  | _ => cases hn

theorem minDuration_initPlan (s : State) (bl : Bool) (f : Byte) :
    minDuration (ackedEvents s (initPlan bl f)) = 21444 := by
  simp only [initPlan, ackedEvents_append, minDuration_append, minDuration_writeNibble, minDuration_cmd,
    settle_functionSet, settle_displayControl, settle_entryMode]
  simp [ackedEvents, minDuration, settle, tReset1, tReset2, tReset4, tHome, tClear]

/-! ### A request whose traffic is acknowledged -/

/-- The state in which a request commits when its traffic is all acknowledged. -/
def requestSent (i : Instr) (s : State) : State :=
  (requestStart i s).afterBus (busTransactions i) (ackedEvents s (requestPlan i s))

section
variable {s : State} (hs : StateSound s) (hi : s.initialized = true)
include hs hi

/-- Under the invariant the cursor step at the end of WRITE_CHAR and of the shifts commits (R210). -/
theorem stepCursorAndEnd_commits :
    ∃ u, cursorCommit s = some u ∧ stepCursorAndEnd s = .next (u.deliver .ok) := by
  obtain ⟨t, ht⟩ := stepCursorAndEnd_answers hs hi
  rcases stepCursorAndEnd_next ht with ⟨u, hu, rfl⟩ | ⟨hmiss, -⟩
  · exact ⟨u, hu, ht⟩
  · obtain ⟨p, hp, -⟩ := hs.cursorCommit_eq hi
    exact nomatch hmiss.symm.trans hp

theorem transmit_stepCursor_acked {plan : List Prim} (h : AcksAhead s (transactions plan)) :
    ∃ u, cursorCommit (s.afterBus (transactions plan) (ackedEvents s plan)) = some u ∧
      requireInitialized s (transmit plan s stepCursorAndEnd) = .next (u.deliver .ok) := by
  rw [requireInitialized_of_initialized hi, transmit_acked _ h]
  exact stepCursorAndEnd_commits (hs.afterBus _ _) hi

theorem setControl_acked (h : AcksAhead s 6) (bit : Byte) (on : Bool) :
    setControl bit on s = .next (((s.afterBus 6 (ackedEvents s (cmd s.backlightOn
      (baseDisplayControl ||| withBit (s.control.getD 0) bit on)))).putControl
        (withBit (s.control.getD 0) bit on)).deliver .ok) := by
  obtain ⟨v, m, x, y, hv, -⟩ := hs.legal_fields hi
  rw [setControl, requireInitialized_of_initialized hi, hv, readField_some]
  exact transmitCommit_acked _ h

theorem setEntry_acked (h : AcksAhead s 6) (inc : Bool) :
    setEntry inc s = .next (((s.afterBus 6 (ackedEvents s (cmd s.backlightOn
      (baseEntryMode ||| withBit (s.mode.getD 0) bitID inc)))).putMode
        (withBit (s.mode.getD 0) bitID inc)).deliver .ok) := by
  obtain ⟨v, m, x, y, -, hm, -⟩ := hs.legal_fields hi
  rw [setEntry, requireInitialized_of_initialized hi, hm, readField_some]
  exact transmitCommit_acked _ h

theorem setBacklight_acked (h : AcksAhead s 6) (v : Bool) :
    setBacklight v s = .next (((s.putBacklight v).afterBus 6 (ackedEvents s (cmd v
      (setDdramByte (s.col.getD 0) (s.row.getD 0))))).deliver .ok) := by
  obtain ⟨-, -, x, y, -, -, hx, hy, -⟩ := hs.legal_fields hi
  rw [setBacklight, requireInitialized_of_initialized hi, hx, hy, readField_some, readField_some]
  exact transmitCommit_acked (s := s.putBacklight v) id h

theorem execClear_acked (h : AcksAhead s 6) :
    execClear s = .next ((((s.afterBus 6 (ackedEvents s (cmd s.backlightOn baseClear))).putCursor ⟨0, 0⟩).putMode
      (withBit (s.mode.getD 0) bitID true)).deliver .ok) := by
  obtain ⟨v, m, x, y, -, hm, -⟩ := hs.legal_fields hi
  rw [execClear, requireInitialized_of_initialized hi, transmit_acked _ h, State.afterBus_mode, hm]
  rfl

/-- When every transaction is acknowledged a request that passes its checks commits and answers OK. -/
theorem exec_acked {i : Instr} (hn : needsInit i = true) (ha : argumentsOk s.config i = true)
    (h : AcksAhead s (busTransactions i)) :
    ∃ u, requestCommit i (requestSent i s) = some u ∧ exec i s = .next (u.deliver .ok) := by
  cases i with
  | probe | home =>
    exact ⟨_, rfl, (requireInitialized_of_initialized hi _).trans (transmitCommit_acked _ h)⟩
  | setCursor x y =>
    exact ⟨_, rfl, (if_pos ha).trans ((requireInitialized_of_initialized hi _).trans (transmitCommit_acked _ h))⟩
  | writeChar c =>
    have hc : c ≠ 0 := by simpa [argumentsOk] using ha
    change ∃ u, _ ∧ execWriteChar c s = _
    rw [execWriteChar, if_neg hc]
    exact transmit_stepCursor_acked hs hi h
  | shiftLeft | shiftRight => exact transmit_stepCursor_acked hs hi h
  | clear => exact ⟨_, rfl, execClear_acked hs hi h⟩
  | displayOn | displayOff | cursorOn | cursorOff | blinkOn | blinkOff =>
    exact ⟨_, rfl, setControl_acked hs hi h _ _⟩
  | leftToRight | rightToLeft => exact ⟨_, rfl, setEntry_acked hs hi h _⟩
  | backlightOn | backlightOff => exact ⟨_, rfl, setBacklight_acked hs hi h _⟩
  | _ => cases hn

end

theorem execInit_acked {s : State} (hi : s.initialized = false) (h : AcksAhead s 42) :
    exec (.init false) s = .next ((initCommit (s.afterBus 42 (ackedEvents s
      (initPlan s.backlightOn (functionFor s.config))))).deliver .ok) := by
  change execInit false s = _
  rw [execInit, hi, ← transactions_initPlan s.backlightOn (functionFor s.config)]
  exact transmitCommit_acked _ (transactions_initPlan _ _ ▸ h)

/-! ### What a controller in step takes -/

theorem controllerView_of_readyWith {es : List Event} {bytes : List (Byte × Bool)}
    (h : wireAfter es = Wire.readyWith bytes) : controllerView es = some bytes := by
  rw [controllerView, h]
  rfl

/-- A ready controller that is known to have taken `bytes`. -/
theorem wireAfter_eq_readyWith {es : List Event} {bytes : List (Byte × Bool)} (hready : (wireAfter es).Ready)
    (hview : controllerView es = some bytes) : wireAfter es = Wire.readyWith bytes := by
  have hbytes := controllerView_of_readyWith hready.eq_readyWith
  rw [hview] at hbytes
  rw [Option.some.inj hbytes]
  exact hready.eq_readyWith

/-- A ready controller takes the byte of an acknowledged plan, and is ready again. -/
theorem BytePlan.foldl_acked {bl : Bool} {bytes : List (Byte × Bool)} {ps : List Prim} (hp : BytePlan bl bytes ps)
    (s : State) (taken : List (Byte × Bool)) :
    (ackedEvents s ps).foldl Wire.after (Wire.readyWith taken) = Wire.readyWith (taken ++ bytes) := by
  cases hp with
  | silent => simp [ackedEvents]
  | probe => simp [ackedEvents, Wire.after]
  | command v => exact Wire.foldl_cmd_ready s bl v taken
  | data c => exact Wire.foldl_data_ready s bl c taken

/-! ### The nibbles that a plan latches -/

/-- From lines with EN low `es` latches `ls` and leaves EN low, whatever comes after. -/
def Latches (es : List Event) (ls : List Latch) : Prop :=
  ∀ (before : Byte) (tail : List Event), before.getLsbD 2 = false →
    ∃ after : Byte, after.getLsbD 2 = false ∧ latched before (es ++ tail) = (latched after tail).map (ls ++ ·)

theorem Latches.latched_eq {es : List Event} {ls : List Latch} (h : Latches es ls) {before : Byte}
    (hb : before.getLsbD 2 = false) : latched before es = some ls := by
  obtain ⟨after, -, hes⟩ := h before [] hb
  simpa [latched] using hes

theorem Latches.append {es fs : List Event} {ls ms : List Latch} (h : Latches es ls) (k : Latches fs ms) :
    Latches (es ++ fs) (ls ++ ms) := by
  intro before tail hb
  obtain ⟨mid, hmid, hes⟩ := h before (fs ++ tail) hb
  obtain ⟨after, hafter, hfs⟩ := k mid tail hmid
  refine ⟨after, hafter, ?_⟩
  rw [List.append_assoc, hes, hfs, Option.map_map]
  exact congrArg (Option.map · _) (funext fun _ => (List.append_assoc ..).symm)

theorem latches_delay (t : Nat) : Latches [.delay t] [] := by
  intro before tail hb
  exact ⟨before, hb, by simp [latched]⟩

theorem latches_writeNibble (s : State) (bl : Bool) (n : Byte) :
    Latches (ackedEvents s (writeNibble bl n .cmd)) [⟨n.extractLsb' 4 4, false⟩] := by
  intro before tail hb
  refine ⟨payloadBase bl n .cmd, payloadBase_enable n bl .cmd, ?_⟩
  rw [ackedEvents_writeNibble]
  exact latched_nib_append before s _ n bl .cmd tail hb rfl

/-- The data lines carry the high nibble, whatever the low one (R94). -/
theorem masked_high_nibble : ∀ v : Byte, (v &&& 0xF0).extractLsb' 4 4 = v.extractLsb' 4 4 := by decide +kernel

theorem latches_cmd (s : State) (bl : Bool) (v : Byte) :
    Latches (ackedEvents s (cmd bl v)) [⟨v.extractLsb' 4 4, false⟩, ⟨v.extractLsb' 0 4, false⟩] := by
  have h := ((latches_writeNibble s bl (v &&& 0xF0)).append (latches_writeNibble s bl ((v <<< 4) &&& 0xF0))).append
    (latches_delay (settle v .cmd))
  rw [masked_high_nibble, masked_high_nibble, shl_high_nibble] at h
  rw [cmd, writeByte, ackedEvents_append, ackedEvents_append]
  exact h

/-- The nibbles of INIT for the function register `f`: four alone, then those of five bytes (R142). -/
def initNibbles (f : Byte) : List (BitVec 4) :=
  [0x3, 0x3, 0x3, 0x2, (baseFunctionSet ||| f).extractLsb' 4 4, (baseFunctionSet ||| f).extractLsb' 0 4,
    0x0, 0xC, 0x0, 0x1, 0x0, 0x6, 0x0, 0x2]

theorem latches_initPlan (s : State) (bl : Bool) (f : Byte) :
    Latches (ackedEvents s (initPlan bl f)) ((initNibbles f).map fun n => ⟨n, false⟩) := by
  simp only [initPlan, ackedEvents_append]
  exact (((((((((((latches_writeNibble s bl 0x30).append (latches_delay _)).append
    (latches_writeNibble s bl 0x30)).append (latches_delay _)).append (latches_writeNibble s bl 0x30)).append
    (latches_writeNibble s bl 0x20)).append (latches_delay _)).append (latches_cmd s bl _)).append
    (latches_cmd s bl _)).append (latches_cmd s bl _)).append (latches_cmd s bl _)).append (latches_cmd s bl _)

/-- The function register of INIT for the rows of a well-formed configuration (R142). -/
theorem functionFor_of_wf {c : Config} (hc : configWf c = true) :
    functionFor c = if c.rows = 1 then 0x00 else 0x08 := by
  rcases (configWf_bounds hc).1 with h | h | h <;> rw [functionFor, h] <;> rfl

theorem initNibbles_functionFor {c : Config} (hc : configWf c = true) :
    initNibbles (functionFor c) =
      [0x3, 0x3, 0x3, 0x2, 0x2, if c.rows = 1 then 0x0 else 0x8, 0x0, 0xC, 0x0, 0x1, 0x0, 0x6, 0x0, 0x2] := by
  rw [functionFor_of_wf hc]
  split <;> rfl

theorem initBytes_functionFor {c : Config} (hc : configWf c = true) :
    initBytes (functionFor c) = [(if c.rows = 1 then 0x20 else 0x28, false), (0x0C, false), (0x01, false),
      (0x06, false), (0x02, false)] := by
  rw [functionFor_of_wf hc]
  split <;> rfl

/-! ### WRITE_STRING (R88) -/

/-- WRITE_STRING goes on after a WRITE_CHAR that answered OK, and ends with any other answer. -/
theorem execWriteString_cons {s u : State} {c : Byte} {r : ResultCode} (cs : List Byte)
    (h : exec (.writeChar c) s = .next u) (hr : u.responses = s.responses ++ [r]) :
    execWriteString (c :: cs) s = if r = .ok then execWriteString cs u else .next (r, u) := by
  change execWriteChar c s = .next u at h
  rw [execWriteString, h]
  cases r <;> simp [hr]

/-- What WRITE_STRING does with the characters after those it has written. -/
theorem execWriteString_append {front : List Byte} (back : List Byte) {s t : State}
    (h : execWriteString front s = .next (.ok, t)) : execWriteString (front ++ back) s = execWriteString back t := by
  induction front generalizing s with
  | nil =>
    cases h
    rfl
  | cons c cs ih =>
    cases hu : exec (.writeChar c) s with
    | next u =>
      obtain ⟨r, -, hr, -⟩ := exec_request_commitsOnlyOnSuccess rfl hu
      rw [execWriteString_cons cs hu hr] at h
      rw [List.cons_append, execWriteString_cons _ hu hr]
      split at h
      next hok => rw [if_pos hok, ih h]
      next hne =>
        cases h
        exact absurd rfl hne
    | fault f | refused f =>
      change execWriteChar c s = _ at hu
      rw [execWriteString, hu] at h
      cases h

/-- An acknowledged WRITE_CHAR on an initialized encoder sends its character and moves the cursor. -/
theorem exec_writeChar_acked {s : State} {c : Byte} (hs : StateSound s) (hi : s.initialized = true) (hc : c ≠ 0)
    (h : AcksAhead s 6) : ∃ p, exec (.writeChar c) s =
      .next (((s.afterBus 6 (s.dataEvents s.backlightOn c)).putCursor p).deliver .ok) := by
  obtain ⟨u, hcommit, hexec⟩ := exec_acked (i := .writeChar c) hs hi rfl (by simpa [argumentsOk] using hc) h
  obtain ⟨p, rfl⟩ := cursorCommit_eq_some hcommit
  refine ⟨p, hexec.trans ?_⟩
  rw [← ackedEvents_data]
  rfl

/-- WRITE_STRING writes all its characters when every transaction is acknowledged. -/
theorem execWriteString_acked {front : List Byte} {s : State} (hs : StateSound s) (hi : s.initialized = true)
    (hchars : ∀ c ∈ front, c ≠ 0) (h : AcksAhead s (6 * front.length)) :
    ∃ t, execWriteString front s = .next (.ok, t) ∧
      t.responses = s.responses ++ List.replicate front.length .ok ∧
      t.trace = s.trace ++ front.flatMap (s.dataEvents s.backlightOn) := by
  induction front generalizing s with
  | nil => exact ⟨s, rfl, by simp, by simp⟩
  | cons c cs ih =>
    obtain ⟨hc, hcs⟩ := List.forall_mem_cons.1 hchars
    rw [List.length_cons, Nat.mul_succ, Nat.add_comm] at h
    obtain ⟨p, hexec⟩ := exec_writeChar_acked hs hi hc (h.mono (Nat.le_add_right _ _))
    obtain ⟨t, ht, hresponses, htrace⟩ :=
      ih (exec_sound hs hexec) hi hcs (h.afterBus (s.dataEvents s.backlightOn c))
    refine ⟨t, ?_, ?_, ?_⟩
    · rw [execWriteString_cons cs hexec rfl, if_pos rfl, ht]
    · simp [hresponses, List.replicate_succ]
    · simp only [htrace, State.deliver_trace, State.putCursor_trace, State.afterBus_trace, List.flatMap_cons,
        List.append_assoc]
      rfl

/-! ### The assembler (R87) -/

theorem map_fits {k : Nat} {α : Type} (mk : BitVec k → α) (n : Nat) :
    (fits k n).map mk = if n < 2 ^ k then some (mk (BitVec.ofNat k n)) else none := by
  unfold fits
  split <;> rfl

theorem assembleInit_of_other {os : List AsmOperand} (hnone : os ≠ []) (height : os ≠ [.eightBit]) :
    assembleInit os = none := by
  unfold assembleInit
  split
  · exact absurd rfl hnone
  · exact absurd rfl height
  · rfl

theorem assembleWriteChar_number (n : Nat) :
    assembleWriteChar [.number n] = if n < 256 then some (.writeChar (BitVec.ofNat 8 n)) else none :=
  map_fits (k := 8) Instr.writeChar n

theorem assembleWriteChar_ascii (c : Char) : assembleWriteChar [.ascii c] =
    if c.toNat < 128 then some (.writeChar (BitVec.ofNat 8 c.toNat)) else none := by
  change (if c.toNat < 128 then (fits 8 c.toNat).map Instr.writeChar else none) = _
  split
  next h => rw [map_fits, if_pos (Nat.lt_trans h (by decide))]
  next => rfl

theorem assembleWriteChar_of_other {os : List AsmOperand} (hnumber : ∀ n, os ≠ [.number n])
    (hascii : ∀ c, os ≠ [.ascii c]) : assembleWriteChar os = none := by
  unfold assembleWriteChar
  split
  next n => exact absurd rfl (hnumber n)
  next c => exact absurd rfl (hascii c)
  next => rfl

theorem assembleSetCursor_numbers (col row : Nat) : assembleSetCursor [.number col, .number row] =
    if col < 128 ∧ row < 4 then some (.setCursor (BitVec.ofNat 7 col) (BitVec.ofNat 2 row)) else none := by
  change ((fits 7 col).bind fun x => (fits 2 row).map fun y => Instr.setCursor x y) = _
  simp only [map_fits]
  unfold fits
  by_cases hcol : col < 128 <;> by_cases hrow : row < 4 <;> simp [hcol, hrow]

theorem assembleSetCursor_of_other {os : List AsmOperand} (h : ∀ col row, os ≠ [.number col, .number row]) :
    assembleSetCursor os = none := by
  unfold assembleSetCursor
  split
  next col row => exact absurd rfl (h col row)
  next => rfl

theorem assembleGlyph_number (n : Nat) : assembleGlyph [.number n] =
    if n < 8 then some (.writeCustomGlyph (BitVec.ofNat 3 n)) else none :=
  map_fits (k := 3) Instr.writeCustomGlyph n

theorem assembleGlyph_of_other {os : List AsmOperand} (h : ∀ n, os ≠ [.number n]) : assembleGlyph os = none := by
  unfold assembleGlyph
  split
  next n => exact absurd rfl (h n)
  next => rfl

end Sys2Proof.Machine

open Sys2Proof Sys2Proof.Machine

/-! ### The statements -/

/-- Settles O1: `decode_encode`, by the forms of words, bytes and nibbles. -/
theorem decodeOfEncodeIsTheInstruction : Obligations.DecodeOfEncodeIsTheInstruction :=
  fun _ h => decode_encode h

/-- Settles O2: a word is the encoding of some well-formed instruction, so decoding it gives that one back. -/
theorem everyWordIsAssignedOrReserved : Obligations.EveryWordIsAssignedOrReserved := by
  intro w
  obtain ⟨i, hi, hwf, hreserved⟩ := exists_encode_eq w
  exact ⟨i, hi ▸ decode_encode hwf, hi, hwf, hreserved.trans reservedWord_iff⟩

/-- Settles O41: a word that matches no row of R82 decodes to `reserved`, whose meaning is one delivery. -/
theorem reservedWordsEndWithInvalidArgument : Obligations.ReservedWordsEndWithInvalidArgument := by
  constructor
  · intro s w rest hw hin
    have hdecode := decodeRequest_of_reserved (reservedWord_iff.2 hw)
    exact step_of_decode_ok hin (congrArg Except.ok hdecode)
  · exact fun _ _ => rfl

/-- Settles O51: the request commits with its whole plan sent, and the plan is the one byte that R93 lists. -/
theorem controllerReceivesTheEmittedBytes : Obligations.ControllerReceivesTheEmittedBytes := by
  intro i s bytes hs hi hn ha hack hready hview
  obtain ⟨u, hcommit, hexec⟩ := exec_acked hs hi hn ha hack
  obtain ⟨-, -, hutrace, huresponses, -⟩ := requestCommit_frame hcommit
  obtain ⟨-, -, htrace, hresponses, -⟩ := requestStart_frame i s
  have hinit : ∀ e, i ≠ .init e := by
    rintro e rfl
    cases hn
  obtain ⟨emitted, hplan, hemitted⟩ := requestPlan_bytePlan hinit s
  have hsent : u.trace = s.trace ++ ackedEvents s (requestPlan i s) := by simp [hutrace, requestSent, htrace]
  have hwire : wireAfter u.trace = Wire.readyWith (bytes ++ emittedBytes s i) := by
    rw [hsent, wireAfter_append, wireAfter_eq_readyWith hready hview, hplan.foldl_acked, hemitted hs]
  refine ⟨_, _, hexec, ?_, hsent, ?_, controllerView_of_readyWith hwire, minDuration_requestPlan hn s⟩
  · simp [huresponses, requestSent, hresponses]
  · exact hwire ▸ Wire.readyWith_ready _

/-- Settles O52: the nibbles are those of R142's steps in order, and the wait after step 2 makes any controller
ready. -/
theorem controllerReceivesTheInitSequence : Obligations.ControllerReceivesTheInitSequence := by
  intro s hc hi hack
  have hwire : wireAfter (s.trace ++ ackedEvents s (initPlan s.backlightOn (functionFor s.config))) = _ :=
    (wireAfter_append _ _).trans (Wire.foldl_initPlan s s.backlightOn (functionFor s.config) _)
  refine ⟨_, _, execInit_acked hi hack, rfl, rfl, fun before hb => ?_, ?_, ?_, minDuration_initPlan s _ _⟩
  · rw [(latches_initPlan s _ _).latched_eq hb, initNibbles_functionFor hc]
  · exact hwire ▸ Wire.readyWith_ready _
  · rw [← initBytes_functionFor hc]
    exact controllerView_of_readyWith hwire

/-- Settles O57: WRITE_STRING's step, and by induction what it has done before the first failure. -/
theorem writeStringStopsAtTheFirstFailure : Obligations.WriteStringStopsAtTheFirstFailure := by
  refine ⟨fun s => rfl, fun s u c cs r => execWriteString_cons cs, fun s front hs hi hchars hack => ?_,
    fun s c cs hi hc => ?_⟩
  · obtain ⟨t, ht, hresponses, htrace⟩ := execWriteString_acked hs hi hchars hack
    refine ⟨t, ht, hresponses, htrace, fun back => ?_, fun c back u r hu hr hne => ?_⟩
    · have hzero : exec (.writeChar 0) t = .next (t.deliver .invalidArgument) := exec_of_arguments_bad rfl
      exact (execWriteString_append _ ht).trans (execWriteString_cons back hzero rfl)
    · rw [execWriteString_append _ ht, execWriteString_cons back hu hr, if_neg hne]
  · have hexec : exec (.writeChar c) s = .next (s.deliver .invalidState) :=
      (if_neg hc).trans (requireInitialized_of_not hi _)
    exact execWriteString_cons cs hexec rfl

/-- Settles O3: the words and bytes, decoded one by one. -/
theorem wordsOfTheOpcodeTableDecode : Obligations.WordsOfTheOpcodeTableDecode :=
  ⟨rfl, rfl, rfl, rfl, rfl, rfl, rfl, rfl, rfl, rfl, rfl, rfl, rfl, rfl⟩

/-- Settles O4: the numbers of R86; code 7 is excluded result by result. -/
theorem resultCodesAreNumberedByTheTable : Obligations.ResultCodesAreNumberedByTheTable :=
  ⟨rfl, rfl, rfl, rfl, rfl, rfl, rfl, fun r => by cases r <;> decide⟩

/-- Settles O5: mnemonic by mnemonic; a list of operands of another shape falls through to the refusing case. -/
theorem assemblerRefusesWhatDoesNotFit : Obligations.AssemblerRefusesWhatDoesNotFit := by
  refine ⟨rfl, rfl, fun os => assembleInit_of_other, assembleWriteChar_number, assembleWriteChar_ascii,
    fun os => assembleWriteChar_of_other, assembleSetCursor_numbers, fun os => assembleSetCursor_of_other,
    assembleGlyph_number, fun os => assembleGlyph_of_other, ?_⟩
  intro row hrow
  fin_cases hrow <;> exact ⟨rfl, fun _ _ => rfl⟩

/-- Settles O60: an acknowledged nibble transfer is `N(x)` of R145, and nothing follows it. -/
theorem loneNibblesAreOneTransfer : Obligations.LoneNibblesAreOneTransfer := by
  intro s hack
  have hsend (n : Byte) : runTransfer (writeNibble s.backlightOn n .cmd) s =
      .next ((s.afterBus 3 (s.nib s.backlightOn ((n &&& 0xF0) ||| Mode.cmd.rs))).giveBack .ok) := by
    rw [← ackedEvents_writeNibble]
    exact runTransfer_acked hack
  exact ⟨hsend 0x30, hsend 0x20⟩

end

section
/-! PROOFS. The statements on the protocol engine (spec/40_protocol_engine.md): the bus primitives, the nibble and byte
transfers, the settle times, and the bytes sent on their own. -/

namespace Sys2Proof.Machine

/-! ### Plans, one primitive at a time -/

/-- A plan that begins with a write goes on only when the write is acknowledged (R111). -/
theorem runPlan_write_cons (b : Byte) (ps : List Prim) (s : State) :
    runPlan (.write b :: ps) s =
      if s.responseAt 0 = .ack then runPlan ps (s.afterBus 1 [s.w b])
      else (writeResult (s.responseAt 0), s.afterBus 1 [s.wr b (s.responseAt 0)]) := by
  rw [runPlan_cons, runPrim_write]
  by_cases h : s.responseAt 0 = .ack
  · simp [h, writeResult, State.w]
  · simp [h, writeResult_ne_ok h]

/-- A delay always succeeds (R113). -/
theorem runPlan_delay_cons (t : Nat) (ps : List Prim) (s : State) :
    runPlan (.delay t :: ps) s = runPlan ps (s.afterBus 0 [.delay t]) := by
  rw [runPlan_cons, runPrim_delay]
  exact if_pos rfl

theorem runPlan_singleton (p : Prim) (s : State) : runPlan [p] s = runPrim p s := by
  rw [runPlan_cons, runPlan_nil]
  split
  · next h => rw [← h]
  · rfl

/-- A plan that ends with a delay waits only when what comes before it returned OK. -/
theorem runPlan_append_delay {ps : List Prim} {s t : State} {r : ResultCode} (h : runPlan ps s = (r, t)) (d : Nat) :
    runPlan (ps ++ [.delay d]) s = if r = .ok then (.ok, t.afterBus 0 [.delay d]) else (r, t) := by
  rw [runPlan_append, h, runPlan_singleton, runPrim_delay]

/-! ### Transfers -/

theorem payloadBase_mask (bl : Bool) (n : Byte) (m : Mode) : payloadBase bl (n &&& 0xF0) m = payloadBase bl n m := by
  rw [payloadBase, BitVec.and_assoc]
  rfl

/-- R116(a): only the high nibble of `n` matters. -/
theorem writeNibble_mask (bl : Bool) (n : Byte) (m : Mode) : writeNibble bl (n &&& 0xF0) m = writeNibble bl n m := by
  rw [writeNibble, payloadBase_mask]
  rfl

theorem ackedEvents_writeByte (s : State) (bl : Bool) (v : Byte) (m : Mode) :
    ackedEvents s (writeByte bl v m) =
      s.nib bl ((v &&& 0xF0) ||| m.rs) ++ s.nib bl (((v <<< 4) &&& 0xF0) ||| m.rs) := by
  rw [writeByte, writeNibble_mask, writeNibble_mask, ackedEvents_append, ackedEvents_writeNibble,
    ackedEvents_writeNibble]

/-- A command made on its own, all of its writes acknowledged (R120). -/
theorem runTransfer_cmd_acked {s : State} (hack : AcksAhead s 6) {v : Byte} {t : Nat} (ht : settle v .cmd = t) :
    runTransfer (cmd s.backlightOn v) s = .next (s.afterCommand v t) := by
  rw [runTransfer_acked hack, ackedEvents_cmd, ht]
  rfl

/-- A lone nibble transfer, all of its writes acknowledged (R115). -/
theorem runTransfer_nibble_acked {s : State} (hack : AcksAhead s 3) (n : Byte) :
    runTransfer (writeNibble s.backlightOn n .cmd) s =
      .next ((s.afterBus 3 (s.nib s.backlightOn (n &&& 0xF0))).giveBack .ok) := by
  have hrs : (n &&& 0xF0) ||| Mode.cmd.rs = n &&& 0xF0 := BitVec.or_zero
  rw [runTransfer_acked hack, ackedEvents_writeNibble, hrs]
  rfl

/-! ### The bytes of the opcode table and those outside it (R92, R96) -/

theorem getLsbD_or_of_left {v w : Byte} {k : Nat} (h : v.getLsbD k = true) : (v ||| w).getLsbD k = true := by
  rw [BitVec.getLsbD_or, h, Bool.true_or]

theorem setCgram_or_eq_ofNat (a : BitVec 6) : baseSetCgram ||| a.setWidth 8 = BitVec.ofNat 8 (0x40 + a.toNat) := by
  revert a; decide +kernel

theorem setDdram_or_eq_ofNat (a : BitVec 7) : baseSetDdram ||| a.setWidth 8 = BitVec.ofNat 8 (0x80 + a.toNat) := by
  revert a; decide +kernel

/-- Only 0x00 has no highest set bit to name its instruction (R92). -/
theorem decodeCommandByte_eq_error {v : Byte} {why : DecodeError} :
    decodeCommandByte v = .error why ↔ v = 0x00 ∧ why = .noCommandByte := by
  constructor
  · intro h
    have hv : ∀ u : Byte, decodeCommandByte u = .error .noCommandByte → u = 0x00 := by decide +kernel
    have hwhy : why = .noCommandByte := by
      unfold decodeCommandByte at h
      split_ifs at h
      cases h
      rfl
    subst hwhy
    exact ⟨hv v h, rfl⟩
  · rintro ⟨rfl, rfl⟩
    rfl

theorem decodeNibble_eq_error {v : Byte} {why : DecodeError} :
    decodeNibble v = .error why ↔ v &&& 0xF0 ≠ 0x30 ∧ v &&& 0xF0 ≠ 0x20 ∧ why = .noLoneNibble v := by
  unfold decodeNibble
  split_ifs with h8 h4
  · exact ⟨nofun, fun h => absurd h8 h.1⟩
  · exact ⟨nofun, fun h => absurd h4 h.2.1⟩
  · exact ⟨fun h => ⟨h8, h4, by cases h; rfl⟩, fun ⟨_, _, hwhy⟩ => hwhy ▸ rfl⟩

/-- What the decoder gives no instruction for, form by form. -/
theorem decode_eq_error {c : Command} {why : DecodeError} :
    decode c = .error why ↔ (c = .transfer .command 0x00 ∧ why = .noCommandByte) ∨
      ∃ v : Byte, c = .transfer .nibble v ∧ v &&& 0xF0 ≠ 0x30 ∧ v &&& 0xF0 ≠ 0x20 ∧ why = .noLoneNibble v := by
  match c with
  | .request w => simp [decode]
  | .transfer .command v => simp [decode, decodeCommandByte_eq_error]
  | .transfer .data v => simp [decode]
  | .transfer .nibble v => simp [decode, decodeNibble_eq_error]

end Sys2Proof.Machine

open Sys2Proof Sys2Proof.Machine

/-! ### The statements -/

/-- Settles O15: the plan's three writes, each of which ends it or lets it go on. -/
theorem nibbleTransferPulsesEnable : Obligations.NibbleTransferPulsesEnable := by
  intro s n b m hb
  have hbase : payloadBase s.backlightOn n m = b := by
    rw [hb]
    cases m <;> rfl
  rw [writeNibble, hbase, runPlan_write_cons, ite_not]
  refine if_congr Iff.rfl ?_ rfl
  rw [runPlan_delay_cons, State.afterBus_afterBus, runPlan_write_cons, ite_not, State.afterBus_responseAt,
    State.afterBus_afterBus, State.afterBus_afterBus]
  refine if_congr Iff.rfl ?_ rfl
  rw [runPlan_delay_cons, State.afterBus_afterBus, runPlan_singleton, runPrim_write, State.afterBus_afterBus,
    State.afterBus_responseAt]
  rfl

/-- Settles O16: the base byte drops the low bits; EN falls at the next write; an acknowledged transfer of 0x00. -/
theorem nibbleTransferCornerCases : Obligations.NibbleTransferCornerCases := by
  intro s n m
  refine ⟨by rw [writeNibble_mask], fun b next hnext => ?_, fun hn hbl hack => ?_⟩
  · have hfalls : latchAt (b ||| 0x04) next = [⟨next.extractLsb' 4 4, next.getLsbD 0⟩] := by
      simp only [latchAt, or_enable_enable, hnext, Bool.not_false, Bool.and_self, if_true]
    rw [← hfalls]
    exact congrArg some (List.append_nil _)
  · rw [runPlan_acked (writeNibble ..) s hack, ackedEvents_writeNibble, hn, hbl]
    rfl

/-- Settles O17: a byte's plan is two nibble plans in a row. -/
theorem byteTransferSendsTheHighNibbleFirst : Obligations.ByteTransferSendsTheHighNibbleFirst := by
  intro s v m rs hrs
  refine ⟨fun r t h => ?_, fun hack => ?_⟩
  · rw [writeByte, runPlan_append, h]
  · obtain rfl : rs = m.rs := by rw [hrs]; cases m <;> rfl
    rw [runPlan_acked (writeByte ..) s hack, ackedEvents_writeByte]
    rfl

/-- Settles O18: a command and a data byte are a byte transfer followed by one delay. -/
theorem settleTimeIsPerInstruction : Obligations.SettleTimeIsPerInstruction := by
  refine ⟨fun v m => ?_, fun s t v r h => runPlan_append_delay h _, fun s t c r h => runPlan_append_delay h _⟩
  cases m with
  | cmd => simp only [true_and]; rfl
  | data => rfl

/-- Settles O11: the decoder's two errors, and what the engine sends for each. -/
theorem unlistedBytesAreSentLikeAnyOther : Obligations.UnlistedBytesAreSentLikeAnyOther := by
  refine ⟨fun c why => decode_eq_error, fun s rest hin hack => ?_, fun s v rest h8 h4 hin hack => ?_⟩
  · rw [step_of_decode_error hin (decode_eq_error.2 (.inl ⟨rfl, rfl⟩))]
    exact runTransfer_cmd_acked (s := s.putInbox rest) hack rfl
  · rw [step_of_decode_error hin (decode_eq_error.2 (.inr ⟨v, rfl, h8, h4, rfl⟩))]
    exact runTransfer_nibble_acked (s := s.putInbox rest) hack v

/-- Settles O14: the two primitives, response by response. -/
theorem busResponsesGiveTheirResults : Obligations.BusResponsesGiveTheirResults := by
  intro s b r before hr
  rw [runPrim_write, runPrim_probe, hr]
  cases r <;> exact ⟨rfl, rfl, rfl, rfl⟩

/-- Settles O58: each row is a command; its byte has a bit above bit 1 set but for Clear and Home. -/
theorem instructionBytesAreSentAsCommands : Obligations.InstructionBytesAreSentAsCommands := by
  intro s hack
  refine ⟨runTransfer_cmd_acked hack rfl, runTransfer_cmd_acked hack rfl,
    fun i sh => runTransfer_cmd_acked hack ?_, fun d c b => runTransfer_cmd_acked hack ?_,
    fun m r => runTransfer_cmd_acked hack ?_, fun l n f => runTransfer_cmd_acked hack ?_, fun a => ?_, fun a => ?_⟩
  · exact settle_of_high_bit (k := 2) (getLsbD_or_of_left (getLsbD_or_of_left rfl)) (by decide)
  · exact settle_of_high_bit (k := 3) (getLsbD_or_of_left (getLsbD_or_of_left (getLsbD_or_of_left rfl))) (by decide)
  · exact settle_of_high_bit (k := 4) (getLsbD_or_of_left (getLsbD_or_of_left rfl)) (by decide)
  · exact settle_of_high_bit (k := 5) (getLsbD_or_of_left (getLsbD_or_of_left (getLsbD_or_of_left rfl))) (by decide)
  · rw [← setCgram_or_eq_ofNat]
    exact runTransfer_cmd_acked hack (settle_of_high_bit (k := 6) (getLsbD_or_of_left rfl) (by decide))
  · rw [← setDdram_or_eq_ofNat]
    exact runTransfer_cmd_acked hack (settle_of_high_bit (k := 7) (getLsbD_or_of_left rfl) (by decide))

/-- Settles O59: an acknowledged data transfer gives back OK. -/
theorem dataBytesAreSentWithRsSet : Obligations.DataBytesAreSentWithRsSet := by
  intro s c hack
  rw [exec_transfer_eq rfl, transferPlan, runTransfer_acked hack, ackedEvents_data]
  rfl

end

section
/-! PROOFS. The statements on INIT (spec/41_initialization.md): its checks, its sequence and commit, and the write that
fails it. -/

namespace Sys2Proof.Machine

/-! ### The end of a plan of writes at its first failure -/

theorem length_filter_isTransaction_ackedEvents (s : State) (ps : List Prim) :
    ((ackedEvents s ps).filter Event.isTransaction).length = transactions ps := by
  induction ps with
  | nil => rfl
  | cons p ps ih =>
    cases p with
    | write | probe =>
      rw [transactions, ← ih, Nat.add_comm]
      rfl
    | delay t => exact ih

/-- The first response that is not ACK is where the acknowledged ones end. -/
theorem AcksAhead.eq_of_first_failure {s : State} {n k : Nat} (hn : AcksAhead s n) (hfail : s.responseAt n ≠ .ack)
    (hk : AcksAhead s k) (hkfail : s.responseAt k ≠ .ack) : n = k := by
  rcases Nat.lt_trichotomy n k with hlt | heq | hgt
  · exact absurd (hk n hlt) hfail
  · exact heq
  · exact absurd (hn k hgt) hkfail

/-- A plan of writes and delays is cut at its first write that is not acknowledged, the `k`-th (R144, R234). -/
theorem runPlan_first_failure {ps : List Prim} {s : State} {k : Nat} (hprobe : .probe ∉ ps) (hk : k < transactions ps)
    (hack : AcksAhead s k) (hfail : s.responseAt k ≠ .ack) :
    ∃ front b back, ps = front ++ .write b :: back ∧ transactions front = k ∧
      runPlan ps s = (writeResult (s.responseAt k),
        s.afterBus (k + 1) (ackedEvents s front ++ [s.wr b (s.responseAt k)])) := by
  rcases runPlan_cases ps s with ⟨hall, -⟩ | ⟨front, p, back, r, rfl, hfront, rfl, hr, ⟨b, rfl, hrun⟩ | ⟨rfl, -⟩⟩
  · exact absurd (hall k hk) hfail
  · obtain rfl := hfront.eq_of_first_failure hr hack hfail
    exact ⟨front, b, back, rfl, rfl, hrun⟩
  · exact absurd (List.mem_append_right _ List.mem_cons_self) hprobe

/-- A request cut at a failed transaction commits nothing and answers with its result (R31, R234). -/
theorem transmitCommit_failed {plan : List Prim} {s t : State} {r : ResultCode} (commit : State → State)
    (hrun : runPlan plan s = (r, t)) (hr : r ≠ .ok) : transmitCommit plan commit s = .next (t.deliver r) := by
  rw [transmitCommit_eq, hrun, if_neg hr]

/-! ### INIT -/

theorem probe_not_mem_initPlan (bl : Bool) (f : Byte) : .probe ∉ initPlan bl f := by
  simp [initPlan, cmd, writeByte, writeNibble]

/-- `F'` of R142. -/
theorem functionFor_eq (c : Config) : functionFor c = if c.rows = 2 ∨ c.rows = 4 then 0x08 else 0x00 := by
  simp [functionFor, bitIf, bitN]

theorem execInit_of_initialized {s : State} (hi : s.initialized = true) :
    exec (.init false) s = .next (s.deliver .invalidState) :=
  if_pos hi

theorem execInit_of_not_initialized {s : State} (hi : s.initialized = false) :
    exec (.init false) s = transmitCommit (initPlan s.backlightOn (functionFor s.config)) initCommit s :=
  if_neg (ne_true_of_eq_false hi)

end Sys2Proof.Machine

open Sys2Proof Sys2Proof.Machine

/-! ### The statements -/

/-- Settles O21: an acknowledged INIT runs its whole plan, whose events are the trace of R145, and commits. -/
theorem initSendsTheSequenceAndCommits : Obligations.InitSendsTheSequenceAndCommits := by
  intro s f hi hack hf
  rw [execInit_acked hi hack, ackedEvents_initPlan, hf, ← functionFor_eq]
  rfl

/-- Settles O22: INIT's plan is cut at the `k`-th of its writes, and what the plan still held is `rest`. -/
theorem failedInitCommitsNothing : Obligations.FailedInitCommitsNothing := by
  rintro s k r hi hk hack rfl hfail
  obtain ⟨front, b, back, hplan, hcount, hrun⟩ := runPlan_first_failure
    (probe_not_mem_initPlan s.backlightOn (functionFor s.config)) (transactions_initPlan _ _ ▸ hk) hack hfail
  refine ⟨ackedEvents s front, b, ackedEvents s back, ?_, ?_, ?_⟩
  · rw [← ackedEvents_initPlan, hplan, ackedEvents_append]
    rfl
  · rw [length_filter_isTransaction_ackedEvents, hcount]
  · rw [execInit_of_not_initialized hi]
    exact transmitCommit_failed initCommit hrun (writeResult_ne_ok hfail)

/-- Settles O20: the argument check comes first, then the check of the state. -/
theorem initChecksItsArgumentThenTheState : Obligations.InitChecksItsArgumentThenTheState :=
  ⟨fun _ => exec_of_arguments_bad rfl, fun _ hi => execInit_of_initialized hi⟩

end

section
/-! PROOFS. The statements on the operations (spec/42_operations.md): what ends a sequence of primitives, PROBE, the
characters and the cursor, the registers that are sent again, the backlight, and the requests with no traffic. -/

namespace Sys2Proof.Machine

/-! ### The primitives that a plan performed (R11, R234) -/

theorem map_prim_ackedEvents (s : State) (ps : List Prim) : (ackedEvents s ps).map Event.prim = ps := by
  induction ps with
  | nil => rfl
  | cons p ps ih => cases p <;> exact congrArg (List.cons _) ih

/-- The events of a plan cut at `last` performed its primitives up to that one. -/
theorem map_prim_cutEvents_prefix (s : State) (front back : List Prim) (last : Event) :
    (ackedEvents s front ++ [last]).map Event.prim <+: front ++ last.prim :: back := by
  rw [List.map_append, map_prim_ackedEvents]
  exact (List.prefix_append_right_inj front).2 (List.prefix_append [last.prim] back)

/-- A plan performs its primitives in order, and all of them when it returns OK. -/
theorem runPlan_map_prim {ps : List Prim} {s : State} {r : ResultCode} {n : Nat} {es : List Event}
    (h : runPlan ps s = (r, s.afterBus n es)) : es.map Event.prim <+: ps ∧ (r = .ok → es.map Event.prim = ps) := by
  rcases runPlan_cases ps s with ⟨-, hrun⟩ | ⟨front, p, back, br, rfl, -, -, hbr, ⟨b, rfl, hrun⟩ | ⟨rfl, hrun⟩⟩ <;>
    obtain ⟨rfl, hstate⟩ := Prod.mk.inj (h.symm.trans hrun) <;>
    obtain rfl := State.afterBus_events_inj hstate
  · have hall := map_prim_ackedEvents s ps
    exact ⟨hall.symm ▸ List.prefix_refl ps, fun _ => hall⟩
  · exact ⟨map_prim_cutEvents_prefix s front back (s.wr b br), fun hok => absurd hok (writeResult_ne_ok hbr)⟩
  · exact ⟨map_prim_cutEvents_prefix s front back (.probe s.config.busIdentifier s.config.deviceAddress br),
      fun hok => absurd hok (probeResult_ne_ok hbr)⟩

/-- A plan without a probe that fails ends at a write, whose response gives the result (R111). -/
theorem runPlan_failed_write {ps : List Prim} (hprobe : .probe ∉ ps) {s : State} {r : ResultCode} {n : Nat}
    {es : List Event} (h : runPlan ps s = (r, s.afterBus n es)) (hr : r ≠ .ok) :
    ∃ front b a, es = front ++ [s.wr b a] ∧ r = writeResult a := by
  rcases runPlan_cases ps s with ⟨-, hrun⟩ | ⟨front, p, back, br, rfl, -, -, -, ⟨b, -, hrun⟩ | ⟨rfl, -⟩⟩
  · exact absurd (Prod.mk.inj (h.symm.trans hrun)).1 hr
  · obtain ⟨hresult, hstate⟩ := Prod.mk.inj (h.symm.trans hrun)
    exact ⟨ackedEvents s front, b, br, State.afterBus_events_inj hstate, hresult⟩
  · exact absurd (List.mem_append_right _ List.mem_cons_self) hprobe

theorem probe_not_mem_cmd (bl : Bool) (v : Byte) : .probe ∉ cmd bl v := by
  simp [cmd, writeByte, writeNibble]

/-! ### Acknowledged requests, in the words of R145 -/

/-- A request that sends one command byte, all of it acknowledged, commits and answers OK. -/
theorem transmitCommit_cmd_acked {s : State} (hack : AcksAhead s 6) (commit : State → State) (bl : Bool) {v : Byte}
    {t : Nat} (ht : settle v .cmd = t) :
    transmitCommit (cmd bl v) commit s = .next ((commit (s.afterBus 6 (s.cmdEvents bl v t))).deliver .ok) := by
  rw [transmitCommit_acked commit hack, ackedEvents_cmd, ht]
  rfl

section
variable {s : State} (hi : s.initialized = true)
include hi

theorem execProbe_of_initialized : exec .probe s = transmitCommit [.probe] id s :=
  requireInitialized_of_initialized hi _

theorem execSetCursor_of_inGeometry {x : BitVec 7} {y : BitVec 2} (hg : inGeometry s.config x y = true) :
    exec (.setCursor x y) s =
      transmitCommit (cmd s.backlightOn (setDdramByte x y)) (State.putCursor ⟨x.toNat, y.toNat⟩) s :=
  (if_pos hg).trans (requireInitialized_of_initialized hi _)

theorem setBacklight_of_cursor {x : BitVec 7} {y : BitVec 2} (hx : s.col = some x) (hy : s.row = some y) (v : Bool) :
    setBacklight v s = transmitCommit (cmd v (setDdramByte x y)) id (s.putBacklight v) := by
  rw [setBacklight, requireInitialized_of_initialized hi, hx, hy]
  rfl

theorem setControl_sends (hack : AcksAhead s 6) {v : Byte} (hv : s.control = some v) (bit : Byte) (on : Bool) :
    setControl bit on s = .next (((s.afterBus 6 (s.cmdEvents s.backlightOn
      (baseDisplayControl ||| withBit v bit on) 50)).putControl (withBit v bit on)).deliver .ok) := by
  rw [setControl, requireInitialized_of_initialized hi, hv]
  exact transmitCommit_cmd_acked hack _ _ (settle_displayControl _)

theorem setEntry_sends (hack : AcksAhead s 6) {m : Byte} (hm : s.mode = some m) (inc : Bool) :
    setEntry inc s = .next (((s.afterBus 6 (s.cmdEvents s.backlightOn
      (baseEntryMode ||| withBit m bitID inc) 50)).putMode (withBit m bitID inc)).deliver .ok) := by
  rw [setEntry, requireInitialized_of_initialized hi, hm]
  exact transmitCommit_cmd_acked hack _ _ (settle_entryMode _)

theorem setBacklight_sends (hack : AcksAhead s 6) {x : BitVec 7} {y : BitVec 2} (hx : s.col = some x)
    (hy : s.row = some y) (v : Bool) :
    setBacklight v s =
      .next (((s.putBacklight v).afterBus 6 (s.cmdEvents v (setDdramByte x y) 50)).deliver .ok) := by
  rw [setBacklight_of_cursor hi hx hy]
  exact transmitCommit_cmd_acked (s := s.putBacklight v) hack id v (settle_setDdramByte x y)

/-- WRITE_CHAR and the shifts, all of their traffic acknowledged, when the cursor step leads to `p`. -/
theorem transmit_stepCursor_sends {plan : List Prim} (hack : AcksAhead s (transactions plan)) {m : Byte}
    {x : BitVec 7} {y : BitVec 2} {p : Position} (hm : s.mode = some m) (hx : s.col = some x) (hy : s.row = some y)
    (hp : cursorStep s.config m ⟨x.toNat, y.toNat⟩ = some p) :
    requireInitialized s (transmit plan s stepCursorAndEnd) =
      .next (((s.afterBus (transactions plan) (ackedEvents s plan)).putCursor p).deliver .ok) := by
  rw [requireInitialized_of_initialized hi, transmit_acked _ hack]
  exact stepCursorAndEnd_of_step hm hx hy hp

theorem shift_sends (hack : AcksAhead s 6) {m : Byte} {x : BitVec 7} {y : BitVec 2} {p : Position}
    (hm : s.mode = some m) (hx : s.col = some x) (hy : s.row = some y)
    (hp : cursorStep s.config m ⟨x.toNat, y.toNat⟩ = some p) {flags : Byte}
    (ht : settle (baseShift ||| flags) .cmd = 50) :
    shift flags s = .next (((s.afterBus 6 (s.cmdEvents s.backlightOn (baseShift ||| flags) 50)).putCursor p).deliver
      .ok) := by
  rw [← ht, ← ackedEvents_cmd]
  exact transmit_stepCursor_sends (plan := cmd _ _) hi hack hm hx hy hp

end

/-- Under the invariant the cursor step from where the cursor is leads to a position on the display (R203, R210). -/
theorem StateSound.cursorStep_valid {s : State} (hs : StateSound s) {x : BitVec 7} {y : BitVec 2}
    (hx : s.col = some x) (hy : s.row = some y) (m : Byte) :
    ∃ p, cursorStep s.config m ⟨x.toNat, y.toNat⟩ = some p ∧ p.valid s.config = true :=
  Machine.cursorStep_valid m hs.config (Position.valid_iff.2 ⟨hs.colLegal x hx, hs.rowLegal y hy⟩)

/-- A cursor of 7 and 2 bits is stored as it is (R22, R164). -/
theorem State.putCursor_toNat (s : State) (x : BitVec 7) (y : BitVec 2) :
    s.putCursor ⟨x.toNat, y.toNat⟩ = { s with col := some x, row := some y } := by
  rw [State.putCursor, BitVec.ofNat_toNat, BitVec.ofNat_toNat, BitVec.setWidth_eq, BitVec.setWidth_eq]

theorem inGeometry_iff {c : Config} {x : BitVec 7} {y : BitVec 2} :
    inGeometry c x y = true ↔ x.toNat < c.columns ∧ y.toNat < c.rows := by
  simp [inGeometry]

/-- A backlight request on an initialized encoder: it writes its flag, runs its plan, and delivers the result. -/
theorem setBacklight_next {s t : State} {x : BitVec 7} {y : BitVec 2} {v : Bool} (hi : s.initialized = true)
    (hx : s.col = some x) (hy : s.row = some y) (h : setBacklight v s = .next t) :
    ∃ r n es, runPlan (cmd v (setDdramByte x y)) (s.putBacklight v) = (r, (s.putBacklight v).afterBus n es) ∧
      t = ((s.putBacklight v).afterBus n es).deliver r := by
  rw [setBacklight_of_cursor hi hx hy] at h
  obtain ⟨r, n, es, hrun, ⟨-, rfl⟩ | ⟨rfl, rfl⟩⟩ := transmitCommit_next h
  · exact ⟨r, n, es, hrun, rfl⟩
  · exact ⟨.ok, n, es, hrun, rfl⟩

/-- R183, for either value of the flag: it is kept and carried whatever happens, and a failure is that of a write. -/
theorem setBacklight_keeps_flag {s t : State} {x : BitVec 7} {y : BitVec 2} {v : Bool} (hi : s.initialized = true)
    (hx : s.col = some x) (hy : s.row = some y) (h : setBacklight v s = .next t) :
    t.backlightOn = v ∧ ∃ es r, t.trace = s.trace ++ es ∧ t.responses = s.responses ++ [r] ∧
      (∀ bus dev b a, Event.write bus dev b a ∈ es → b.getLsbD 3 = v) ∧
      (r ≠ .ok → ∃ front b a, es = front ++ [s.wr b a] ∧ r = writeResult a) := by
  obtain ⟨r, n, es, hrun, rfl⟩ := setBacklight_next hi hx hy h
  have hcarry := ((payloadsCarry_cmd v _).traceSound hrun).2
  have hfailed := runPlan_failed_write (probe_not_mem_cmd v _) hrun
  exact ⟨rfl, es, r, rfl, rfl, hcarry, hfailed⟩

end Sys2Proof.Machine

open Sys2Proof Sys2Proof.Machine

/-! ### The statements -/

/-- Settles O19: by `runPlan_cases`, a plan runs to its end or is cut at the first response that is not ACK. -/
theorem failingTransactionIsTheLastEvent : Obligations.FailingTransactionIsTheLastEvent := by
  intro plan s t r hrun
  obtain ⟨n, es, hstate⟩ := runPlan_frame plan s
  obtain rfl : t = s.afterBus n es := (congrArg Prod.snd hrun).symm.trans hstate
  obtain ⟨hprefix, hall⟩ := runPlan_map_prim hrun
  refine ⟨es, n, rfl, ?_, fun hr => ⟨?_, ?_⟩, fun hr => ?_⟩
  · rw [← List.length_map (f := Event.prim)]
    exact List.prefix_iff_eq_take.1 hprefix
  · rw [← hall hr, List.length_map]
  · rcases runPlan_result_events hrun with ⟨-, hes⟩ | ⟨-, -, -, -, -, hne⟩
    · exact hes
    · exact absurd hr hne
  · rcases runPlan_result_events hrun with ⟨hok, -⟩ | ⟨front, last, hes, hfront, hlast, -⟩
    · exact absurd hok hr
    · exact ⟨front, last, hes, hfront, hlast⟩

/-- Settles O24: an acknowledged data byte, then the cursor step, which the invariant keeps on the display. -/
theorem writeCharSendsTheCharacterAndStepsTheCursor : Obligations.WriteCharSendsTheCharacterAndStepsTheCursor := by
  intro s c m x y hs hi hc hack hm hx hy
  obtain ⟨p, hp, hvalid⟩ := hs.cursorStep_valid hx hy m
  refine ⟨p, cursorStep_eq s.config m _ ▸ hp, hvalid, ?_⟩
  rw [← ackedEvents_data]
  exact (if_neg hc).trans (transmit_stepCursor_sends (plan := data _ c) hi hack hm hx hy hp)

/-- Settles O27: the three outcomes of the argument check and the state check. -/
theorem setCursorSendsTheAddressAndReadsBack : Obligations.SetCursorSendsTheAddressAndReadsBack := by
  intro s x y
  refine ⟨fun hcol hrow hi hack => ?_, fun hout => ?_, fun hcol hrow hi => ?_⟩
  · rw [execSetCursor_of_inGeometry hi (inGeometry_iff.2 ⟨hcol, hrow⟩),
      transmitCommit_cmd_acked hack _ _ (settle_setDdramByte x y), State.putCursor_toNat]
    rfl
  · have hbad : ¬ inGeometry s.config x y = true := by rw [inGeometry_iff]; omega
    exact if_neg hbad
  · exact (if_pos (inGeometry_iff.2 ⟨hcol, hrow⟩)).trans (requireInitialized_of_not hi _)

/-- Settles O35: the six requests are `setControl` of D, C and B. -/
theorem controlRequestsResendTheControlByte : Obligations.ControlRequestsResendTheControlByte := by
  intro s v hi hv hack row hrow
  have hsends := setControl_sends hi hack hv
  fin_cases hrow
  exacts [hsends bitD true, hsends bitD false, hsends bitC true, hsends bitC false, hsends bitB true,
    hsends bitB false]

/-- Settles O36: one cursor step by the entry mode serves both directions of the shift. -/
theorem shiftsStepTheCursorByTheEntryMode : Obligations.ShiftsStepTheCursorByTheEntryMode := by
  intro s m x y hs hi hack hm hx hy
  obtain ⟨p, hp, hvalid⟩ := hs.cursorStep_valid hx hy m
  refine ⟨p, cursorStep_eq s.config m _ ▸ hp, hvalid, fun row hrow => ?_⟩
  fin_cases hrow
  · exact shift_sends hi hack hm hx hy hp (flags := bitSC) rfl
  · exact shift_sends hi hack hm hx hy hp (flags := bitSC ||| bitRL) rfl

/-- Settles O38: the two requests are `setEntry` of I/D. -/
theorem entryDirectionResendsTheModeByte : Obligations.EntryDirectionResendsTheModeByte := by
  intro s m hi hm hack row hrow
  fin_cases hrow
  exacts [setEntry_sends hi hack hm true, setEntry_sends hi hack hm false]

/-- Settles O39: the command sent is SET_CURSOR's, composed with the new flag. -/
theorem backlightRequestsResendTheCursor : Obligations.BacklightRequestsResendTheCursor := by
  intro s x y hi hx hy hack row hrow
  fin_cases hrow
  exacts [setBacklight_sends hi hack hx hy true, setBacklight_sends hi hack hx hy false]

/-- Settles O40: `setBacklight_keeps_flag` for both values of the flag. -/
theorem backlightValueIsKeptOnFailure : Obligations.BacklightValueIsKeptOnFailure := by
  intro s t x y hi hx hy row hrow h
  fin_cases hrow <;> exact setBacklight_keeps_flag hi hx hy h

/-- Settles O23: the plan is one probe; its four responses, and the check of the state. -/
theorem probeAnswersWhetherTheDeviceIsThere : Obligations.ProbeAnswersWhetherTheDeviceIsThere := by
  refine ⟨rfl, fun s r hi hr => ?_, fun s hi => requireInitialized_of_not hi _⟩
  rw [execProbe_of_initialized hi, transmitCommit_eq, runPlan_singleton, runPrim_probe, hr]
  cases r <;> rfl

/-- Settles O25: an acknowledged 0x02, which settles for 1520 µs. -/
theorem homePutsTheCursorAtTheOrigin : Obligations.HomePutsTheCursorAtTheOrigin :=
  fun _ hi hack => (requireInitialized_of_initialized hi _).trans (transmitCommit_cmd_acked hack _ _ rfl)

/-- Settles O26: an acknowledged 0x01, then the mode is read and committed with I/D set. -/
theorem clearSetsTheIncrementBit : Obligations.ClearSetsTheIncrementBit := by
  intro s m hi hm hack
  change execClear s = _
  rw [execClear, requireInitialized_of_initialized hi, transmit_acked _ hack, State.afterBus_mode, hm,
    ackedEvents_cmd]
  rfl

/-- Settles O42: the request's whole meaning is one delivery. -/
theorem entryDisplayShiftIsNotSupported : Obligations.EntryDisplayShiftIsNotSupported := fun _ => rfl

/-- Settles O43: the request's whole meaning is its refusal. -/
theorem customGlyphIsRefused : Obligations.CustomGlyphIsRefused := fun _ _ => rfl

end

section
/-! PROOFS. The statements on the cursor model (spec/43_cursor_model.md): the DDRAM addresses, the row tables, the 1-row
display, the inverse and full-cycle laws, and the row-table miss. -/

namespace Sys2Proof.Machine

/-! ### Addresses -/

/-- The bit of Set-DDRAM-Address and a 7-bit address do not overlap, so the byte holds both (R202). -/
theorem setDdramByte_toNat {x : BitVec 7} {y : BitVec 2} (h : ddramAddress x y < 2 ^ 7) :
    (setDdramByte x y).toNat = 0x80 + ddramAddress x y := by
  have hbyte : ddramAddress x y % 2 ^ 8 = ddramAddress x y := Nat.mod_eq_of_lt (by omega)
  rw [setDdramByte, BitVec.toNat_or, BitVec.toNat_ofNat, hbyte]
  exact (Nat.two_pow_add_eq_or_of_lt h 1).symm

/-! ### The row tables -/

/-- The two row tables are each other's inverse, misses included (R205, R207). -/
theorem prevRow_eq_some_iff {n r q : Nat} : prevRow n q = some r ↔ nextRow n r = some q := by
  constructor <;> intro h
  · unfold prevRow at h
    split at h <;> cases h <;> rfl
  · unfold nextRow at h
    split at h <;> cases h <;> rfl

theorem nextRow_eq_none_of_le {n r : Nat} (h : n ≤ r) : nextRow n r = none :=
  Option.eq_none_iff_forall_ne_some.2 fun _ hq => (prevRow_lt (prevRow_eq_some_iff.2 hq)).not_ge h

theorem prevRow_eq_none_of_le {n r : Nat} (h : n ≤ r) : prevRow n r = none :=
  Option.eq_none_iff_forall_ne_some.2 fun _ hq => (nextRow_lt (prevRow_eq_some_iff.1 hq)).not_ge h

/-! ### The cursor step, branch by branch -/

section
variable {c : Config}

theorem advance_inside (hrows : c.rows ≠ 1) {x : Nat} (h : x + 1 < c.columns) (y : Nat) :
    advance c ⟨x, y⟩ = some ⟨x + 1, y⟩ :=
  (if_neg hrows).trans (if_pos h)

theorem advance_last (hrows : c.rows ≠ 1) {x : Nat} (h : c.columns ≤ x + 1) (y : Nat) :
    advance c ⟨x, y⟩ = (nextRow c.rows y).map (Position.mk 0) :=
  (if_neg hrows).trans (if_neg h.not_gt)

theorem retreat_inside (hrows : c.rows ≠ 1) {x : Nat} (h : 0 < x) (y : Nat) :
    retreat c ⟨x, y⟩ = some ⟨x - 1, y⟩ :=
  (if_neg hrows).trans (if_pos h)

theorem retreat_first (hrows : c.rows ≠ 1) (y : Nat) :
    retreat c ⟨0, y⟩ = (prevRow c.rows y).map (Position.mk (c.columns - 1)) :=
  if_neg hrows

theorem advance_one_row_inside (hrows : c.rows = 1) {x : Nat} (h : x + 1 < c.columns) (y : Nat) :
    advance c ⟨x, y⟩ = some ⟨x + 1, 0⟩ :=
  (if_pos hrows).trans (congrArg some (if_pos h))

theorem advance_pin (hrows : c.rows = 1) (hpin : c.oneRowOverflow = .pin) {x : Nat} (h : c.columns ≤ x + 1)
    (y : Nat) : advance c ⟨x, y⟩ = some ⟨x, 0⟩ := by
  simp [advance, advanceOneRow, hrows, hpin, h.not_gt]

theorem advance_wrap (hrows : c.rows = 1) (hwrap : c.oneRowOverflow = .wrap) {x : Nat} (h : c.columns ≤ x + 1)
    (y : Nat) : advance c ⟨x, y⟩ = some ⟨0, 0⟩ := by
  simp [advance, advanceOneRow, hrows, hwrap, h.not_gt]

theorem retreat_one_row_inside (hrows : c.rows = 1) {x : Nat} (h : 0 < x) (y : Nat) :
    retreat c ⟨x, y⟩ = some ⟨x - 1, 0⟩ :=
  (if_pos hrows).trans (congrArg some (if_pos h))

theorem retreat_pin (hrows : c.rows = 1) (hpin : c.oneRowOverflow = .pin) (y : Nat) :
    retreat c ⟨0, y⟩ = some ⟨0, 0⟩ := by
  simp [retreat, retreatOneRow, hrows, hpin]

theorem retreat_wrap (hrows : c.rows = 1) (hwrap : c.oneRowOverflow = .wrap) (y : Nat) :
    retreat c ⟨0, y⟩ = some ⟨c.columns - 1, 0⟩ := by
  simp [retreat, retreatOneRow, hrows, hwrap]

end

/-! ### The order in which the display is walked through (R211) -/

/-- `q` comes next after `p`: one column on in the same row, or column 0 of the next row, which on a 1-row display is
the same row. -/
def Follows (c : Config) (p q : Position) : Prop :=
  (q.col = p.col + 1 ∧ q.row = p.row) ∨
    (p.col + 1 = c.columns ∧ q.col = 0 ∧ (c.rows = 1 ∨ nextRow c.rows p.row = some q.row))

/-- The place of a row in the order of NEXT_ROW: on four rows 0, 2, 1, 3 (R205). -/
def rowOrder (rows r : Nat) : Nat :=
  match rows, r with
  | 4, 1 => 2
  | 4, 2 => 1
  | _, r => r

/-- How many positions `advance` passes from the origin to `p`. -/
def rank (c : Config) (p : Position) : Nat := c.columns * rowOrder c.rows p.row + p.col

theorem rowOrder_rowOrder (n r : Nat) : rowOrder n (rowOrder n r) = r := by
  unfold rowOrder
  split <;> grind

theorem rowOrder_lt {n r : Nat} (h : r < n) : rowOrder n r < n := by
  unfold rowOrder
  split <;> omega

theorem rowOrder_nextRow {n r q : Nat} (h : nextRow n r = some q) : rowOrder n q = (rowOrder n r + 1) % n := by
  unfold nextRow at h
  split at h <;> cases h <;> rfl

section
variable {c : Config} {p q : Position}

theorem rank_lt (hp : p.valid c = true) : rank c p < c.columns * c.rows := by
  obtain ⟨hcol, hrow⟩ := Position.valid_iff.1 hp
  calc rank c p < c.columns * rowOrder c.rows p.row + c.columns := Nat.add_lt_add_left hcol _
    _ = c.columns * (rowOrder c.rows p.row + 1) := rfl
    _ ≤ c.columns * c.rows := Nat.mul_le_mul_left _ (rowOrder_lt hrow)

/-- No two positions of the display have the same rank. -/
theorem rank_inj (hp : p.valid c = true) (hq : q.valid c = true) (h : rank c p = rank c q) : p = q := by
  have hpcol := (Position.valid_iff.1 hp).1
  have hqcol := (Position.valid_iff.1 hq).1
  have hcol : p.col = q.col := by
    simpa [rank, Nat.mul_add_mod, Nat.mod_eq_of_lt hpcol, Nat.mod_eq_of_lt hqcol] using congrArg (· % c.columns) h
  have hrow : rowOrder c.rows p.row = rowOrder c.rows q.row :=
    Nat.eq_of_mul_eq_mul_left (Nat.zero_lt_of_lt hpcol) (by rw [rank, rank] at h; omega)
  have hrow' : p.row = q.row := by rw [← rowOrder_rowOrder c.rows p.row, hrow, rowOrder_rowOrder]
  exact (Position.mk.injEq ..).mpr ⟨hcol, hrow'⟩

/-- The next position has the next rank, and the position after the last one has rank 0. -/
theorem Follows.rank_eq (h : Follows c p q) (hq : q.valid c = true) :
    rank c q = (rank c p + 1) % (c.columns * c.rows) := by
  rcases h with ⟨hcol, hrow⟩ | ⟨hlast, hfirst, hrow⟩
  · have hrank : rank c q = rank c p + 1 := by rw [rank, rank, hcol, hrow, Nat.add_assoc]
    rw [← hrank, Nat.mod_eq_of_lt (rank_lt hq)]
  · have horder : rowOrder c.rows q.row = (rowOrder c.rows p.row + 1) % c.rows := by
      rcases hrow with hone | hnext
      · have := rowOrder_lt (Position.valid_iff.1 hq).2
        rw [hone] at this ⊢
        omega
      · exact rowOrder_nextRow hnext
    calc rank c q = c.columns * ((rowOrder c.rows p.row + 1) % c.rows) := by rw [rank, hfirst, horder]; rfl
      _ = (c.columns * (rowOrder c.rows p.row + 1)) % (c.columns * c.rows) := (Nat.mul_mod_mul_left ..).symm
      _ = (rank c p + 1) % (c.columns * c.rows) := by rw [rank, Nat.add_assoc, hlast]; rfl

end

/-! ### Advance and retreat walk in that order -/

section
variable {c : Config} (hcyc : c.rows ≠ 1 ∨ c.oneRowOverflow = .wrap) {p q : Position} (hp : p.valid c = true)
  (hq : q.valid c = true)
include hcyc hp hq

theorem advance_eq_some_iff : advance c p = some q ↔ Follows c p q := by
  obtain ⟨x, y⟩ := p
  obtain ⟨x', y'⟩ := q
  simp only [Position.valid_iff] at hp hq
  by_cases hrows : c.rows = 1
  · by_cases hin : x + 1 < c.columns
    · rw [advance_one_row_inside hrows hin]
      simp only [Follows, Option.some.injEq, Position.mk.injEq]
      omega
    · rw [advance_wrap hrows (hcyc.resolve_left (not_not_intro hrows)) (not_lt.1 hin)]
      simp only [Follows, hrows, true_or, and_true, Option.some.injEq, Position.mk.injEq]
      omega
  · by_cases hin : x + 1 < c.columns
    · rw [advance_inside hrows hin]
      simp only [Follows, Option.some.injEq, Position.mk.injEq]
      omega
    · rw [advance_last hrows (not_lt.1 hin)]
      simp only [Follows, hrows, false_or, Option.map_eq_some_iff, Position.mk.injEq]
      grind

theorem retreat_eq_some_iff : retreat c q = some p ↔ Follows c p q := by
  obtain ⟨x, y⟩ := p
  obtain ⟨x', y'⟩ := q
  simp only [Position.valid_iff] at hp hq
  by_cases hrows : c.rows = 1
  · rcases Nat.eq_zero_or_pos x' with rfl | hin
    · rw [retreat_wrap hrows (hcyc.resolve_left (not_not_intro hrows))]
      simp only [Follows, hrows, true_or, and_true, Option.some.injEq, Position.mk.injEq]
      omega
    · rw [retreat_one_row_inside hrows hin]
      simp only [Follows, Option.some.injEq, Position.mk.injEq]
      omega
  · rcases Nat.eq_zero_or_pos x' with rfl | hin
    · rw [retreat_first hrows]
      simp only [Follows, hrows, false_or, Option.map_eq_some_iff, Position.mk.injEq, prevRow_eq_some_iff]
      grind
    · rw [retreat_inside hrows hin]
      simp only [Follows, Option.some.injEq, Position.mk.injEq]
      omega

/-- Retreat is advance read backwards (R206, R211(a)). -/
theorem retreat_eq_some_iff_advance : retreat c q = some p ↔ advance c p = some q :=
  (retreat_eq_some_iff hcyc hp hq).trans (advance_eq_some_iff hcyc hp hq).symm

end

/-! ### Many steps -/

theorem iterStep_succ (f : Position → Option Position) (n : Nat) (p : Position) :
    iterStep f (n + 1) p = (iterStep f n p).bind f := by
  induction n generalizing p with
  | zero => exact Option.bind_fun_some _
  | succ n ih =>
    calc (f p).bind (iterStep f (n + 1)) = (f p).bind fun r => (iterStep f n r).bind f := by rw [funext ih]
      _ = (iterStep f (n + 1) p).bind f := (Option.bind_assoc ..).symm

/-- Walking back undoes walking, when each step back undoes a step. -/
theorem iterStep_reverse {f g : Position → Option Position} {P : Position → Prop}
    (hback : ∀ p q, P p → f p = some q → P q ∧ g q = some p) {n : Nat} {p q : Position} (hp : P p)
    (h : iterStep f n p = some q) : iterStep g n q = some p := by
  induction n generalizing p with
  | zero =>
    obtain rfl : p = q := Option.some.inj h
    rfl
  | succ n ih =>
    obtain ⟨r, hr, hrest⟩ := Option.bind_eq_some_iff.1 h
    obtain ⟨hvalid, hgr⟩ := hback p r hp hr
    rw [iterStep_succ, ih hvalid hrest]
    exact hgr

/-- Around a cycle of `n` places there is exactly one number of steps below `n` from one place to another. -/
theorem existsUnique_steps {n a b : Nat} (ha : a < n) (hb : b < n) : ∃! k, k < n ∧ b = (a + k) % n := by
  refine ⟨(b + (n - a)) % n, ⟨Nat.mod_lt _ (by omega), ?_⟩, fun k ⟨hk, hmod⟩ => ?_⟩
  · rw [Nat.add_mod_mod, show a + (b + (n - a)) = b + n by omega, Nat.add_mod_right, Nat.mod_eq_of_lt hb]
  · rw [hmod, Nat.mod_add_mod, show a + k + (n - a) = k + n by omega, Nat.add_mod_right, Nat.mod_eq_of_lt hk]

section
variable {c : Config} (hc : configWf c = true) {p q : Position} (hp : p.valid c = true)
include hc hp

theorem valid_of_advance (h : advance c p = some q) : q.valid c = true := by
  obtain ⟨r, hr, hvalid⟩ := advance_valid hc hp
  exact Option.some.inj (h.symm.trans hr) ▸ hvalid

theorem valid_of_retreat (h : retreat c p = some q) : q.valid c = true := by
  obtain ⟨r, hr, hvalid⟩ := retreat_valid hc hp
  exact Option.some.inj (h.symm.trans hr) ▸ hvalid

variable (hcyc : c.rows ≠ 1 ∨ c.oneRowOverflow = .wrap)
include hcyc

/-- `k` advances add `k` to the rank, around the cycle. -/
theorem iterStep_advance (k : Nat) : ∃ q, iterStep (advance c) k p = some q ∧ q.valid c = true ∧
    rank c q = (rank c p + k) % (c.columns * c.rows) := by
  induction k with
  | zero => exact ⟨p, rfl, hp, (Nat.mod_eq_of_lt (rank_lt hp)).symm⟩
  | succ k ih =>
    obtain ⟨r, hr, hrvalid, hrank⟩ := ih
    obtain ⟨q, hq, hqvalid⟩ := advance_valid hc hrvalid
    refine ⟨q, by rw [iterStep_succ, hr]; exact hq, hqvalid, ?_⟩
    rw [((advance_eq_some_iff hcyc hrvalid hqvalid).1 hq).rank_eq hqvalid, hrank, Nat.mod_add_mod, Nat.add_assoc]

theorem iterStep_advance_eq_some_iff (hq : q.valid c = true) (k : Nat) :
    iterStep (advance c) k p = some q ↔ rank c q = (rank c p + k) % (c.columns * c.rows) := by
  obtain ⟨r, hr, hrvalid, hrank⟩ := iterStep_advance hc hp hcyc k
  rw [hr, ← hrank, Option.some.injEq]
  exact ⟨fun h => h ▸ rfl, fun h => rank_inj hrvalid hq h.symm⟩

theorem iterStep_retreat_eq_some_iff (hq : q.valid c = true) (k : Nat) :
    iterStep (retreat c) k p = some q ↔ iterStep (advance c) k q = some p := by
  constructor
  · refine iterStep_reverse (P := fun p => p.valid c = true) (fun p q hp h => ?_) hp
    have hq := valid_of_retreat hc hp h
    exact ⟨hq, (retreat_eq_some_iff_advance hcyc hq hp).1 h⟩
  · refine iterStep_reverse (P := fun p => p.valid c = true) (fun p q hp h => ?_) hq
    have hq := valid_of_advance hc hp h
    exact ⟨hq, (retreat_eq_some_iff_advance hcyc hp hq).2 h⟩

/-- A full cycle of advances comes back (R211(b)). -/
theorem iterStep_advance_cycle : iterStep (advance c) (c.columns * c.rows) p = some p := by
  rw [iterStep_advance_eq_some_iff hc hp hcyc hp, Nat.add_mod_right, Nat.mod_eq_of_lt (rank_lt hp)]

/-- Advancing meets each position of the display once per cycle (R211(c)). -/
theorem existsUnique_iterStep_advance (hq : q.valid c = true) :
    ∃! k, k < c.columns * c.rows ∧ iterStep (advance c) k p = some q := by
  simp only [iterStep_advance_eq_some_iff hc hp hcyc hq]
  exact existsUnique_steps (rank_lt hp) (rank_lt hq)

end

/-! ### A row-table miss (R209) -/

section
variable {s : State} {m : Byte} {x : BitVec 7} {y : BitVec 2} (hm : s.mode = some m) (hx : s.col = some x)
  (hy : s.row = some y) (hmiss : cursorStep s.config m ⟨x.toNat, y.toNat⟩ = none)
include hm hx hy hmiss

/-- The end of WRITE_CHAR and of the shifts when the row table is missed. -/
theorem stepCursorAndEnd_of_miss : stepCursorAndEnd s = .next (s.deliver .invalidState) := by
  simp [stepCursorAndEnd, hm, hx, hy, hmiss]

/-- WRITE_CHAR and the shifts, all of their traffic acknowledged, when the row table is missed. -/
theorem transmit_stepCursor_misses (hi : s.initialized = true) {plan : List Prim}
    (hack : AcksAhead s (transactions plan)) :
    requireInitialized s (transmit plan s stepCursorAndEnd) =
      .next ((s.afterBus (transactions plan) (ackedEvents s plan)).deliver .invalidState) := by
  rw [requireInitialized_of_initialized hi, transmit_acked _ hack]
  exact stepCursorAndEnd_of_miss hm hx hy hmiss

theorem shift_misses (hi : s.initialized = true) (hack : AcksAhead s 6) {flags : Byte}
    (ht : settle (baseShift ||| flags) .cmd = 50) :
    shift flags s =
      .next ((s.afterBus 6 (s.cmdEvents s.backlightOn (baseShift ||| flags) 50)).deliver .invalidState) := by
  rw [← ht, ← ackedEvents_cmd]
  exact transmit_stepCursor_misses (plan := cmd _ _) hm hx hy hmiss hi hack

end

end Sys2Proof.Machine

open Sys2Proof Sys2Proof.Machine

/-! ### The statements -/

/-- Settles O32: the two steps of a valid position, each branch of which stays on the display. -/
theorem cursorStepStaysOnTheDisplay : Obligations.CursorStepStaysOnTheDisplay :=
  fun _ _ hc hp => ⟨advance_valid hc hp, retreat_valid hc hp⟩

/-- Settles O33: `retreat_eq_some_iff_advance`, read from either end of a step. -/
theorem advanceAndRetreatAreInverse : Obligations.AdvanceAndRetreatAreInverse := by
  intro c p hc hcyc hp
  obtain ⟨q, hq, hqvalid⟩ := advance_valid hc hp
  obtain ⟨r, hr, hrvalid⟩ := retreat_valid hc hp
  rw [hq, hr]
  exact ⟨(retreat_eq_some_iff_advance hcyc hp hqvalid).2 hq, (retreat_eq_some_iff_advance hcyc hrvalid hp).1 hr⟩

/-- Settles O34: advance adds one to the rank, modulo the number of positions, and retreat walks the same cycle
backwards. -/
theorem cursorCyclesThroughEveryPosition : Obligations.CursorCyclesThroughEveryPosition := by
  intro c p hc hcyc hp
  refine ⟨iterStep_advance_cycle hc hp hcyc, ?_, fun q hq => ⟨existsUnique_iterStep_advance hc hp hcyc hq, ?_⟩⟩
  · exact (iterStep_retreat_eq_some_iff hc hp hcyc hp _).2 (iterStep_advance_cycle hc hp hcyc)
  · simp only [iterStep_retreat_eq_some_iff hc hp hcyc hq]
    exact existsUnique_iterStep_advance hc hq hcyc hp

/-- Settles O37: the miss comes after the traffic and delivers its result alone; the invariant keeps the cursor in the
row tables. -/
theorem rowTableMissCommitsNoCursor : Obligations.RowTableMissCommitsNoCursor := by
  refine ⟨fun s m c x y hi hc hack hm hx hy hmiss => ⟨?_, ?_, ?_⟩, fun s m x y hs hx hy => ?_⟩
  · rw [← ackedEvents_data]
    exact (if_neg hc).trans (transmit_stepCursor_misses (plan := data _ c) hm hx hy hmiss hi hack)
  · exact shift_misses hm hx hy hmiss hi hack (flags := bitSC) rfl
  · exact shift_misses hm hx hy hmiss hi hack (flags := bitSC ||| bitRL) rfl
  · obtain ⟨p, hp, -⟩ := hs.cursorStep_valid hx hy m
    exact Option.ne_none_iff_exists'.2 ⟨p, hp⟩

/-- Settles O28: the table by evaluation, the bounds by `ddramAddress_lt`. -/
theorem ddramAddressesFitSevenBits : Obligations.DdramAddressesFitSevenBits := by
  refine ⟨rfl, rfl, rfl, rfl, fun _ _ => rfl, fun c x y hc hx hy => ?_⟩
  have hlt := ddramAddress_lt hc hx hy
  exact ⟨Nat.le_of_lt_succ hlt, setDdramByte_toNat hlt, rfl⟩

/-- Settles O29: the branch inside the row, then the rows of NEXT_ROW. -/
theorem advanceFollowsTheRowPairs : Obligations.AdvanceFollowsTheRowPairs := by
  intro c _
  have hlast : c.rows ≠ 1 → ∀ y, advance c ⟨c.columns - 1, y⟩ = (nextRow c.rows y).map (Position.mk 0) :=
    fun hrows => advance_last hrows (by omega)
  refine ⟨fun hrows x y hin => advance_inside hrows hin y, fun hrows => ?_, fun hrows => ?_⟩
  · simp only [hlast (by omega), hrows]
    exact ⟨rfl, rfl, fun y hy => congrArg _ (nextRow_eq_none_of_le hy)⟩
  · simp only [hlast (by omega), hrows]
    exact ⟨rfl, rfl, rfl, rfl, fun y hy => congrArg _ (nextRow_eq_none_of_le hy)⟩

/-- Settles O30: the branch inside the row, then the rows of PREV_ROW. -/
theorem retreatFollowsTheInverseRowTable : Obligations.RetreatFollowsTheInverseRowTable := by
  intro c _
  refine ⟨fun hrows x y hin => retreat_inside hrows hin y, fun hrows => ?_, fun hrows => ?_⟩
  · simp only [retreat_first (c := c) (by omega), hrows]
    exact ⟨rfl, rfl, fun y hy => congrArg _ (prevRow_eq_none_of_le hy)⟩
  · simp only [retreat_first (c := c) (by omega), hrows]
    exact ⟨rfl, rfl, rfl, rfl, fun y hy => congrArg _ (prevRow_eq_none_of_le hy)⟩

/-- Settles O31: the branches of the two 1-row steps. -/
theorem oneRowDisplayPinsOrWraps : Obligations.OneRowDisplayPinsOrWraps :=
  fun _ _ y hrows => ⟨fun hin => advance_one_row_inside hrows hin y, fun hin => retreat_one_row_inside hrows hin y,
    fun hlast hpin => advance_pin hrows hpin hlast y, fun hlast hwrap => advance_wrap hrows hwrap hlast y,
    fun hpin => retreat_pin hrows hpin y, fun hwrap => retreat_wrap hrows hwrap y⟩

end

section
/-! PROOFS. The statements on exceptions (spec/60_exceptions.md): the state requirement, the order of the checks, and
the one result that every request delivers. -/

namespace Sys2Proof.Machine

/-! ### The state requirement (R233) -/

/-- The requests that R233's list leaves out. -/
theorem needsInit_eq_false_iff {i : Instr} (hq : i.isTransfer = false) :
    needsInit i = false ↔
      (∃ e, i = .init e) ∨ i = .entryDisplayShift ∨ (∃ w, i = .reserved w) ∨ ∃ slot, i = .writeCustomGlyph slot := by
  constructor
  · intro hn
    cases i with
    | init e => exact .inl ⟨e, rfl⟩
    | entryDisplayShift => exact .inr (.inl rfl)
    | reserved w => exact .inr (.inr (.inl ⟨w, rfl⟩))
    | writeCustomGlyph slot => exact .inr (.inr (.inr ⟨slot, rfl⟩))
    | hdClearDisplay | hdReturnHome | hdEntryModeSet | hdDisplayControl | hdCursorDisplayShift | hdFunctionSet
    | hdSetCgramAddress | hdSetDdramAddress | hdWriteData | hdFunctionSet8BitNibble | hdFunctionSet4BitNibble =>
      cases hq
    | _ => cases hn
  · rintro (⟨e, rfl⟩ | rfl | ⟨w, rfl⟩ | ⟨slot, rfl⟩) <;> rfl

/-- Before INIT a request that needs it, and whose operands pass the argument checks, ends at the check of the state. -/
theorem exec_before_init {i : Instr} {s : State} (hn : needsInit i = true) (hi : s.initialized = false)
    (ha : argumentsOk s.config i = true) : exec i s = .next (s.deliver .invalidState) := by
  cases i with
  | writeChar c =>
    have hc : c ≠ 0 := by simpa [argumentsOk] using ha
    exact (if_neg hc).trans (requireInitialized_of_not hi _)
  | setCursor x y => exact (if_pos ha).trans (requireInitialized_of_not hi _)
  | probe | home | clear | displayOn | displayOff | cursorOn | cursorOff | blinkOn | blinkOff | shiftLeft | shiftRight
  | leftToRight | rightToLeft | backlightOn | backlightOff => exact requireInitialized_of_not hi _
  | _ => cases hn

/-! ### One result per request (R230, R54) -/

/-- A request gives nothing back to a caller of the protocol engine. -/
theorem Ran.returns_eq {i : Instr} {s t : State} (h : Ran i s t) : t.returns = s.returns := by
  obtain ⟨r, n, es, -, hran⟩ := h
  obtain ⟨-, -, -, -, hstart, -⟩ := requestStart_frame i s
  rcases hran with ⟨-, rfl⟩ | ⟨-, v, hcommit, rfl⟩ | ⟨-, -, rfl⟩
  · exact hstart
  · obtain ⟨-, -, -, -, hv, -⟩ := requestCommit_frame hcommit
    exact hv.trans hstart
  · exact hstart

theorem exec_request_returns_eq {i : Instr} {s t : State} (hq : i.isTransfer = false) (h : exec i s = .next t) :
    t.returns = s.returns := by
  rcases exec_request_next hq h with ⟨r, -, rfl⟩ | ⟨-, hran⟩
  · rfl
  · exact hran.returns_eq

end Sys2Proof.Machine

open Sys2Proof Sys2Proof.Machine

/-! ### The statements -/

/-- Settles O44: `needsInit` request by request; before INIT the argument check, then the check of the state. -/
theorem requestsBeforeInitEndWithInvalidState : Obligations.RequestsBeforeInitEndWithInvalidState := by
  refine ⟨fun i hq => needsInit_eq_false_iff hq, fun s i hn hi => ?_, fun s hi => execInit_of_initialized hi⟩
  cases ha : argumentsOk s.config i with
  | true => exact exec_before_init hn hi ha
  | false => exact exec_of_arguments_bad ha

/-- Settles O45: `exec_of_arguments_bad`, which holds for every instruction and in every state. -/
theorem argumentChecksComeFirst : Obligations.ArgumentChecksComeFirst :=
  fun _ _ _ ha => exec_of_arguments_bad ha

/-- Settles O46: a request delivers its result and gives none back; a protocol-engine call does the reverse. -/
theorem everyRequestDeliversOneResult : Obligations.EveryRequestDeliversOneResult := by
  refine fun i s t h => ⟨fun hq => ?_, fun hq => ?_⟩
  · obtain ⟨r, -, hresponses, -⟩ := exec_request_commitsOnlyOnSuccess hq h
    exact ⟨r, hresponses, exec_request_returns_eq hq h⟩
  · obtain ⟨r, n, es, -, rfl⟩ := exec_transfer_next hq h
    exact ⟨r, rfl, rfl⟩

end

section
/-! PROOFS. The statements on reset and hazards (spec/70_reset_and_hazards.md): the idle encoder, the minimum durations,
and what a failed write leaves behind the bus port. -/

namespace Sys2Proof.Machine

/-! ### The idle encoder (R261) -/

theorem step_of_inbox_nil {s : State} (h : s.inbox = []) : step s = .next s := by
  simp only [step, h]

/-! ### What an instruction that succeeds waits (R281) -/

/-- A plan that returns OK had every transaction acknowledged. -/
theorem runPlan_ok_events {ps : List Prim} {s : State} {n : Nat} {es : List Event}
    (h : runPlan ps s = (.ok, s.afterBus n es)) : es = ackedEvents s ps := by
  rcases runPlan_cases ps s with ⟨-, hrun⟩ | ⟨front, p, back, br, -, -, -, hbr, ⟨b, -, hrun⟩ | ⟨-, hrun⟩⟩
  · exact State.afterBus_events_inj (Prod.mk.inj (h.symm.trans hrun)).2
  · exact absurd (Prod.mk.inj (hrun.symm.trans h)).1 (writeResult_ne_ok hbr)
  · exact absurd (Prod.mk.inj (hrun.symm.trans h)).1 (probeResult_ne_ok hbr)

/-- A request that ran and delivered OK added the events of its whole plan. -/
theorem Ran.trace_of_ok {i : Instr} {s t : State} (h : Ran i s t) (hok : t.responses = s.responses ++ [.ok]) :
    t.trace = s.trace ++ ackedEvents s (requestPlan i s) := by
  obtain ⟨r, n, es, hrun, hran⟩ := h
  obtain ⟨hconfig, -, htrace, hresponses, -⟩ := requestStart_frame i s
  rcases hran with ⟨hr, rfl⟩ | ⟨rfl, v, hcommit, rfl⟩ | ⟨-, -, rfl⟩
  · simp [hresponses, hr] at hok
  · obtain ⟨-, -, hvtrace, -⟩ := requestCommit_frame hcommit
    rw [State.deliver_trace, hvtrace, State.afterBus_trace, htrace, runPlan_ok_events hrun, ackedEvents_congr hconfig]
  · simp [hresponses] at hok

/-- INIT 8BIT ends at its argument check (R141). -/
theorem execInit_8bit (s : State) : exec (.init true) s = .next (s.deliver .invalidArgument) :=
  exec_of_arguments_bad rfl

/-- An instruction that succeeds added the events of its whole plan; INIT 8BIT does not succeed. -/
theorem exec_trace_of_ok {i : Instr} {s t : State} (h : exec i s = .next t)
    (hok : t.responses = s.responses ++ [.ok] ∨ t.returns = s.returns ++ [.ok]) :
    i ≠ .init true ∧ t.trace = s.trace ++ ackedEvents s (instrPlan i s) := by
  cases hq : i.isTransfer with
  | true =>
    obtain ⟨r, n, es, hrun, rfl⟩ := exec_transfer_next hq h
    obtain rfl : r = .ok := by simpa using hok
    rw [instrPlan_of_transfer hq, ← runPlan_ok_events hrun]
    refine ⟨?_, rfl⟩
    rintro rfl
    cases hq
  | false =>
    have hresponse : t.responses = s.responses ++ [.ok] :=
      hok.resolve_right fun hreturn => by simp [exec_request_returns_eq hq h] at hreturn
    constructor
    · rintro rfl
      cases (execInit_8bit s).symm.trans h
      simp at hresponse
    · rcases exec_request_next hq h with ⟨r, hr, rfl⟩ | ⟨-, hran⟩
      · simp [hr] at hresponse
      · rw [instrPlan_of_request hq]
        exact hran.trace_of_ok hresponse

/-- A command byte with a bit above bit 1 waits 2052 µs. -/
theorem minDuration_cmd_of_high_bit {v : Byte} {k : Nat} (h : v.getLsbD k = true) (hk : 2 ≤ k) (s : State)
    (bl : Bool) : minDuration (ackedEvents s (cmd bl v)) = 2052 :=
  minDuration_cmd_of_settle (settle_of_high_bit h hk) s bl

/-- What the waits of a protocol-engine call add up to when it succeeds. -/
theorem minDuration_transferPlan {i : Instr} (hq : i.isTransfer = true) (s : State) :
    minDuration (ackedEvents s (transferPlan i s)) = requestDuration i := by
  cases i with
  | hdClearDisplay | hdReturnHome => exact minDuration_cmd_of_settle rfl s _
  | hdEntryModeSet =>
    exact minDuration_cmd_of_high_bit (k := 2) (getLsbD_or_of_left (getLsbD_or_of_left rfl)) (by decide) s _
  | hdDisplayControl =>
    exact minDuration_cmd_of_high_bit (k := 3) (getLsbD_or_of_left (getLsbD_or_of_left (getLsbD_or_of_left rfl)))
      (by decide) s _
  | hdCursorDisplayShift =>
    exact minDuration_cmd_of_high_bit (k := 4) (getLsbD_or_of_left (getLsbD_or_of_left rfl)) (by decide) s _
  | hdFunctionSet =>
    exact minDuration_cmd_of_high_bit (k := 5) (getLsbD_or_of_left (getLsbD_or_of_left (getLsbD_or_of_left rfl)))
      (by decide) s _
  | hdSetCgramAddress => exact minDuration_cmd_of_high_bit (k := 6) (getLsbD_or_of_left rfl) (by decide) s _
  | hdSetDdramAddress => exact minDuration_cmd_of_high_bit (k := 7) (getLsbD_or_of_left rfl) (by decide) s _
  | hdWriteData c => exact minDuration_data s _ c
  | hdFunctionSet8BitNibble | hdFunctionSet4BitNibble => exact minDuration_writeNibble s _ _ _
  | _ => cases hq

/-- What the waits of every instruction but INIT 8BIT add up to when it succeeds. -/
theorem minDuration_instrPlan {i : Instr} (hi : i ≠ .init true) (s : State) :
    minDuration (ackedEvents s (instrPlan i s)) = requestDuration i := by
  cases hq : i.isTransfer with
  | true =>
    rw [instrPlan_of_transfer hq]
    exact minDuration_transferPlan hq s
  | false =>
    rw [instrPlan_of_request hq]
    cases hn : needsInit i with
    | true => exact minDuration_requestPlan hn s
    | false =>
      rcases (needsInit_eq_false_iff hq).1 hn with ⟨e, rfl⟩ | rfl | ⟨w, rfl⟩ | ⟨slot, rfl⟩
      · obtain rfl : e = false := by simpa using hi
        exact minDuration_initPlan s _ _
      all_goals rfl

/-! ### What an instruction without a transaction waits (R281) -/

theorem BytePlan.head_not_delay {bl : Bool} {bytes : List (Byte × Bool)} {ps : List Prim} (h : BytePlan bl bytes ps)
    (t : Nat) : ps.head? ≠ some (.delay t) := by
  cases h with
  | silent | probe | command | data => nofun

/-- Every plan is empty or begins with a transaction. -/
theorem instrPlan_head_not_delay (i : Instr) (s : State) (t : Nat) : (instrPlan i s).head? ≠ some (.delay t) := by
  rcases instrPlan_cases i s with ⟨bytes, hbyte⟩ | hinit | ⟨-, x, hnibble⟩
  · exact hbyte.head_not_delay t
  · rw [hinit]
    nofun
  · rw [hnibble]
    nofun

/-- An instruction that made no transaction added no event at all. -/
theorem exec_events_eq_nil {i : Instr} {s t : State} {es : List Event} (h : exec i s = .next t)
    (htrace : t.trace = s.trace ++ es) (hnone : ∀ e ∈ es, e.isTransaction = false) : es = [] := by
  rcases exec_runs h with hsame | ⟨r, n, es', hrun, htrace', -⟩
  · simpa [hsame] using htrace
  · obtain rfl : es = es' := List.append_cancel_left (htrace.symm.trans htrace')
    cases es with
    | nil => rfl
    | cons e es =>
      obtain ⟨rest, hplan⟩ := (runPlan_map_prim hrun).1
      have hhead : (instrPlan i s).head? = some e.prim := hplan ▸ rfl
      cases e with
      | delay d => exact absurd hhead (instrPlan_head_not_delay i s d)
      | write | probe => exact nomatch hnone _ List.mem_cons_self

/-- A request that transmits nothing leaves the trace as it is. -/
theorem exec_trace_of_silent {i : Instr} {s t : State} (hi : busTransactions i = 0) (h : exec i s = .next t) :
    t.trace = s.trace ∧ requestDuration i = 0 := by
  cases i with
  | init e =>
    cases e with
    | false => cases hi
    | true =>
      cases (execInit_8bit s).symm.trans h
      exact ⟨rfl, rfl⟩
  | writeCustomGlyph slot => cases h
  | entryDisplayShift | reserved =>
    cases h
    exact ⟨rfl, rfl⟩
  | _ => cases hi

/-! ### A failed write (R270) -/

/-- A write that failed is the last event of its instruction (R234). -/
theorem exec_failed_write_last {i : Instr} {s t : State} {es : List Event} (h : exec i s = .next t)
    (htrace : t.trace = s.trace ++ es) {bus : Nat} {dev : BitVec 7} {b : Byte} {r : BusResponse}
    (hmem : Event.write bus dev b r ∈ es) (hr : r ≠ .ack) : ∃ front, es = front ++ [.write bus dev b r] := by
  have hbad : (Event.write bus dev b r).result ≠ .ok := writeResult_ne_ok hr
  rcases exec_runs h with hsame | ⟨r, n, es', hrun, htrace', -⟩
  · obtain rfl : es = [] := by simpa [hsame] using htrace
    cases hmem
  · obtain rfl : es = es' := List.append_cancel_left (htrace.symm.trans htrace')
    rcases runPlan_result_events hrun with ⟨-, hall⟩ | ⟨front, last, rfl, hfront, -⟩
    · exact absurd (hall _ hmem) hbad
    · rcases List.mem_append.1 hmem with hin | hin
      · exact absurd (hfront _ hin) hbad
      · obtain rfl := List.mem_singleton.1 hin
        exact ⟨front, rfl⟩

theorem expanderLatch_append (before : Option Byte) (es fs : List Event) :
    expanderLatch before (es ++ fs) = expanderLatch (expanderLatch before es) fs := by
  induction es generalizing before with
  | nil => rfl
  | cons e es ih =>
    cases e with
    | write bus dev b r => cases r <;> exact ih _
    | probe | delay => exact ih _

theorem expanderLatch_failed_last (before : Option Byte) (es : List Event) (bus : Nat) (dev : BitVec 7) (b : Byte)
    {r : BusResponse} (hr : r ≠ .ack) : expanderLatch before (es ++ [.write bus dev b r]) = none := by
  rw [expanderLatch_append]
  cases r with
  | ack => exact absurd rfl hr
  | nack | timeout | busError => rfl

theorem controllerView_eq_none_iff {es : List Event} : controllerView es = none ↔ (wireAfter es).inStep = false := by
  simp [controllerView]

theorem controllerView_failed_last (es : List Event) (bus : Nat) (dev : BitVec 7) (b : Byte)
    {r : BusResponse} (hr : r ≠ .ack) : controllerView (es ++ [.write bus dev b r]) = none := by
  rw [controllerView_eq_none_iff, wireAfter_append]
  cases r with
  | ack => exact absurd rfl hr
  | nack | timeout | busError => exact Wire.failed_inStep _ b

/-- No instruction but INIT has the wait that ends INIT's step 2 (R280). -/
theorem not_delay_tReset4_mem_instrPlan {i : Instr} (hi : ∀ e, i ≠ .init e) (s : State) :
    .delay tReset4 ∉ instrPlan i s := by
  cases hq : i.isTransfer with
  | true =>
    rw [instrPlan_of_transfer hq]
    rcases transferPlan_bytePlan i s with ⟨bytes, hbyte⟩ | ⟨-, x, hnibble⟩
    · exact hbyte.not_delay_tReset4
    · simp [hnibble, writeNibble, tPre, tEn, tReset4]
  | false =>
    rw [instrPlan_of_request hq]
    obtain ⟨bytes, hbyte, -⟩ := requestPlan_bytePlan hi s
    exact hbyte.not_delay_tReset4

/-- INIT's checks leave the trace as it is. -/
theorem execInit_refused_trace {e : Bool} {s t : State} (hi : Instr.init e ≠ .init false ∨ s.initialized = true)
    (h : exec (.init e) s = .next t) : t.trace = s.trace := by
  cases e with
  | true =>
    cases (execInit_8bit s).symm.trans h
    rfl
  | false =>
    cases (execInit_of_initialized (hi.resolve_left fun hne => hne rfl)).symm.trans h
    rfl

/-- Only an INIT that gets past its checks makes a controller known to be in step again (R123, R270). -/
theorem exec_inStep_of_inStep {i : Instr} {s t : State} (hi : i ≠ .init false ∨ s.initialized = true)
    (h : exec i s = .next t) (hin : (wireAfter t.trace).inStep = true) : (wireAfter s.trace).inStep = true := by
  by_cases hinit : ∃ e, i = .init e
  · obtain ⟨e, rfl⟩ := hinit
    rwa [execInit_refused_trace hi h] at hin
  · rcases exec_runs h with hsame | ⟨r, n, es, hrun, htrace, -⟩
    · rwa [hsame] at hin
    · rw [htrace, wireAfter_append] at hin
      have hplan := not_delay_tReset4_mem_instrPlan (fun e he => hinit ⟨e, he⟩) s
      exact Wire.inStep_of_foldl (fun e he heq => hplan (heq ▸ (runPlan_prim hrun e he).1)) hin

/-! ### A nibble transfer cut at one of its writes (R116) -/

/-- Where a nibble transfer that fails at its `j`-th write (from 0) leaves a controller whose EN was low: EN may have
risen at the second, and fallen at the third, which latches. -/
def Wire.cutNibble (w : Wire) : Nat → Wire
  | 0 => { w with inStep := false }
  | 1 => { w with en := none, inStep := false }
  | _ => { w with en := none, phase := .unknown, inStep := false }

theorem Wire.failed_low_of_low {w : Wire} {b : Byte} (hb : b.getLsbD 2 = false) (hw : w.en = some false) :
    w.failed b = { w with inStep := false } := by
  simp only [Wire.failed, hb, hw]

theorem Wire.failed_high_of_low {w : Wire} {b : Byte} (hb : b.getLsbD 2 = true) (hw : w.en = some false) :
    w.failed b = { w with en := none, inStep := false } := by
  simp only [Wire.failed, hb, hw]

theorem Wire.failed_low_of_high {w : Wire} {b : Byte} (hb : b.getLsbD 2 = false) (hw : w.en = some true) :
    w.failed b = { w with en := none, phase := .unknown, inStep := false } := by
  simp only [Wire.failed, hb, hw]

/-- A plan that begins with a nibble transfer is cut at one of the transfer's writes, or after it. -/
theorem writeNibble_append_cut {bl : Bool} {n : Byte} {m : Mode} {rest front back : List Prim} {b : Byte}
    (h : writeNibble bl n m ++ rest = front ++ .write b :: back) {s : State} {w : Wire} (hw : w.en = some false)
    {r : BusResponse} (hr : r ≠ .ack) :
    (transactions front < 3 ∧
      (ackedEvents s front ++ [s.wr b r]).foldl Wire.after w = w.cutNibble (transactions front)) ∨
    ∃ front', front = writeNibble bl n m ++ front' ∧ rest = front' ++ .write b :: back := by
  have hlow := payloadBase_enable n bl m
  have hhigh : (payloadBase bl n m ||| enableBit).getLsbD 2 = true := or_enable_enable _
  have hlast (v : Wire) : v.after (s.wr b r) = v.failed b := v.after_wr_failed s b hr
  simp only [writeNibble, payloadBase_and_not_enable, List.cons_append, List.nil_append, List.cons_eq_append_iff,
    List.cons.injEq, Prim.write.injEq, reduceCtorEq, false_and, and_false, false_or] at h
  rcases h with ⟨rfl, rfl, -⟩ | ⟨-, rfl, -, rfl, ⟨rfl, rfl, -⟩ | ⟨-, rfl, -, rfl, ⟨rfl, rfl, -⟩ | ⟨front', rfl, hrest⟩⟩⟩
  · refine .inl ⟨show 0 < 3 by decide, ?_⟩
    rw [ackedEvents, List.nil_append, List.foldl_cons, hlast, Wire.failed_low_of_low hlow hw]
    rfl
  · refine .inl ⟨show 1 < 3 by decide, ?_⟩
    simp only [ackedEvents, List.cons_append, List.nil_append, List.foldl_cons, State.w, Wire.after_wr_ack, hlast]
    rw [Wire.after_delay _ (by decide), Wire.acked_low_of_low hlow hw, Wire.failed_high_of_low hhigh hw]
    rfl
  · refine .inl ⟨show 2 < 3 by decide, ?_⟩
    simp only [ackedEvents, List.cons_append, List.nil_append, List.foldl_cons, State.w, Wire.after_wr_ack, hlast]
    rw [Wire.after_delay _ (by decide), Wire.after_delay _ (by decide), Wire.acked_low_of_low hlow hw,
      Wire.acked_high _ hhigh, Wire.failed_low_of_high hlow rfl]
    rfl
  · exact .inr ⟨front', by simp [writeNibble, payloadBase_and_not_enable], hrest⟩

/-- A data byte is cut within its high nibble, or within its low one, with the high one latched. -/
theorem data_cut {bl : Bool} {c : Byte} {front back : List Prim} {b : Byte}
    (h : data bl c = front ++ .write b :: back) {s : State} {w : Wire} (hw : w.en = some false)
    {r : BusResponse} (hr : r ≠ .ack) :
    (transactions front < 3 ∧
      (ackedEvents s front ++ [s.wr b r]).foldl Wire.after w = w.cutNibble (transactions front)) ∨
    ∃ j < 3, transactions front = 3 + j ∧
      (ackedEvents s front ++ [s.wr b r]).foldl Wire.after w = (w.latch ⟨c.extractLsb' 4 4, true⟩).cutNibble j := by
  rw [Machine.data, writeByte, writeNibble_mask, writeNibble_mask, List.append_assoc] at h
  rcases writeNibble_append_cut h hw hr with hhigh | ⟨low, rfl, hlow⟩
  · exact .inl hhigh
  · have hlatch : (ackedEvents s (writeNibble bl c .data)).foldl Wire.after w = w.latch ⟨c.extractLsb' 4 4, true⟩ := by
      rw [ackedEvents_writeNibble]
      exact Wire.foldl_nib s _ c bl .data w hw rfl
    rw [transactions_append, ackedEvents_append, List.append_assoc, List.foldl_append, hlatch]
    rcases writeNibble_append_cut hlow (w := w.latch ⟨c.extractLsb' 4 4, true⟩) (by rw [Wire.latch_en, hw]) hr with
      ⟨hj, hcut⟩ | ⟨rest, -, hrest⟩
    · exact .inr ⟨transactions low, hj, rfl, hcut⟩
    · simp [List.cons_eq_append_iff] at hrest

/-- A WRITE_CHAR whose `k`-th write fails ends there (R161, R234). -/
theorem exec_writeChar_first_failure {s t : State} {c : Byte} {k : Nat} (hi : s.initialized = true) (hc : c ≠ 0)
    (hk : k < 6) (hack : AcksAhead s k) (hfail : s.responseAt k ≠ .ack) (h : exec (.writeChar c) s = .next t) :
    ∃ front b back, data s.backlightOn c = front ++ .write b :: back ∧ transactions front = k ∧
      t.trace = s.trace ++ (ackedEvents s front ++ [s.wr b (s.responseAt k)]) := by
  obtain ⟨front, b, back, hplan, hcount, hrun⟩ := runPlan_first_failure (ps := data s.backlightOn c)
    (by simp [Machine.data, writeByte, writeNibble]) hk hack hfail
  refine ⟨front, b, back, hplan, hcount, ?_⟩
  change execWriteChar c s = .next t at h
  rw [execWriteChar, if_neg hc, requireInitialized_of_initialized hi, transmit_eq, hrun,
    if_neg (writeResult_ne_ok hfail)] at h
  cases h
  rfl

/-! ### Off by one nibble, and EN left high (R123, R270) -/

theorem Wire.latch_latch_of_half {w : Wire} {h : Latch} (hw : w.phase = .half h) (a b : Latch) :
    (w.latch a).latch b =
      { w with phase := .half b, bytes := w.bytes ++ [(h.nibble ++ a.nibble, h.rs)] } := by
  simp only [Wire.latch, hw]

theorem Wire.latch_of_whole {w : Wire} (hw : w.phase = .whole) (a : Latch) :
    w.latch a = { w with phase := .half a } := by
  simp only [Wire.latch, hw]

end Sys2Proof.Machine

open Sys2Proof Sys2Proof.Machine

/-! ### The statements -/

/-- Settles O54: the failed write is the last event; only INIT's wait after its step 2 restores agreement. -/
theorem failedWritesDesynchronise : Obligations.FailedWritesDesynchronise := by
  refine ⟨?_, fun i s t hi h hnone => ?_⟩
  · rintro i s t es before h htrace ⟨bus, dev, b, r, hmem, hr⟩
    obtain ⟨front, rfl⟩ := exec_failed_write_last h htrace hmem hr
    rw [htrace, ← List.append_assoc]
    exact ⟨expanderLatch_failed_last before _ bus dev b hr, controllerView_failed_last _ bus dev b hr⟩
  · rw [controllerView_eq_none_iff] at hnone ⊢
    exact Bool.eq_false_iff.2 fun hin => Bool.eq_false_iff.1 hnone (exec_inStep_of_inStep hi h hin)

/-- Settles O55: a WRITE_CHAR is cut in one of its two nibbles; a half byte pairs with the next nibble latched; EN
falling from high latches. -/
theorem halfAByteShiftsEveryLaterByte : Obligations.HalfAByteShiftsEveryLaterByte := by
  refine ⟨fun s t c k hi hc hready hk hack hfail h => ?_, fun s bl v t w half hen hphase ht => ⟨?_, ?_⟩,
    fun s b w hen hphase hb => ?_⟩
  · obtain ⟨front, b, back, hplan, hcount, htrace⟩ := exec_writeChar_first_failure hi hc hk hack hfail h
    rw [htrace, wireAfter_append, hready.eq_readyWith]
    rcases data_cut (s := s) (w := Wire.readyWith (wireAfter s.trace).bytes) hplan rfl hfail with
      ⟨hj, hcut⟩ | ⟨j, hj, hsum, hcut⟩
    · rw [hcut, hcount]
      rw [hcount] at hj
      interval_cases k <;> exact ⟨rfl, rfl, rfl⟩
    · obtain rfl : k = 3 + j := hcount.symm.trans hsum
      rw [hcut]
      interval_cases j <;> exact ⟨rfl, rfl, rfl⟩
  · rw [Wire.foldl_cmdEvents s bl v w hen ht, Wire.latch_latch_of_half hphase]
  · rw [Wire.foldl_dataEvents s bl v w hen, Wire.latch_latch_of_half hphase]
  · exact (Wire.acked_low_of_high hb hen).trans (Wire.latch_of_whole (w := { w with en := some false }) hphase _)

/-- Settles O50: a success adds its plan's events, whose waits are R281's sum; without a transaction there is no
event. -/
theorem minimumDurations : Obligations.MinimumDurations := by
  refine ⟨fun s bl x y => ?_, fun i s t es h htrace hok => ?_, fun i s t es h htrace hnone => ?_,
    fun i s t hi h => exec_trace_of_silent hi h⟩
  · exact ⟨minDuration_nib s bl x, by rw [minDuration_append, minDuration_nib, minDuration_nib]⟩
  · obtain ⟨hi, htrace'⟩ := exec_trace_of_ok h hok
    rw [List.append_cancel_left (htrace.symm.trans htrace')]
    exact minDuration_instrPlan hi s
  · rw [exec_events_eq_nil h htrace hnone]
    rfl

/-- Settles O10: the step's case for an empty inbox. -/
theorem idleEncoderWaits : Obligations.IdleEncoderWaits :=
  fun _ h => step_of_inbox_nil h

end
